-- ==== Sys2Proof/Word.lean ====
section
/-!
DEFINITION. The value types of the block: bytes, 32-bit words and byte sequences (00_scope.md R11, R12).
-/

namespace Sys2Proof

/-- A byte; bit 0 is its least significant bit (R11). -/
abbrev Byte := BitVec 8

/-- A 32-bit register value, bus datum or command word (R11, R21, R100). -/
abbrev Word := BitVec 32

/-- A byte sequence (R12). -/
abbrev Bytes := List Byte

end Sys2Proof
end

