-- ==== Sys2Proof/Syntax.lean ====
section
/-!
DEFINITION. The instructions: the eight commands of 30_encoding.md R103, one per row of spec/opcode_table.json.
-/

namespace Sys2Proof

/-- A command of the block (R2, R101, R103). Commands take no operands of their own: everything they
read stands in the state (R105). RECV with EOS = 0 and with EOS = 1 are two rows of the table. -/
inductive Instr where
  | crc       -- CRC       0x00000001 (R125)
  | append    -- APPEND    0x00000002 (R143)
  | verify    -- VERIFY    0x00000003 (R144)
  | fenc      -- FENC      0x00000004 (R162)
  | recv      -- RECV      0x00000005 (R163, EOS = 0)
  | recvEos   -- RECV.EOS  0x00000105 (R163, EOS = 1)
  | send      -- SEND      0x00000006 (R164)
  | sreset    -- SRESET    0x0000000F (R195)
deriving DecidableEq, Repr

end Sys2Proof
end

