-- ==== Sys2Proof/WellFormed.lean ====
section
/-!
DEFINITION. Well-formedness: of a command (it has no operand that could be wrong) and of a command word,
the legality of 30_encoding.md R104, written from the rule's own two cases and not from the decoder.
-/

namespace Sys2Proof

/-- A command carries no operand (R105), so every one of the eight is well formed. -/
def Instr.wf : Instr → Bool
  | .crc => true
  | .append => true
  | .verify => true
  | .fenc => true
  | .recv => true
  | .recvEos => true
  | .send => true
  | .sreset => true

/-- The reserved bits 31:9 and 7:4 of a command word are 0 (R100). -/
def reservedBitsClear (c : Word) : Bool :=
  c.extractLsb' 9 23 == 0#23 && c.extractLsb' 4 4 == 0#4

/-- The OP values that are legal with EOS = 0 (R104, first case). -/
def plainOps : List (BitVec 4) := [0x1#4, 0x2#4, 0x3#4, 0x4#4, 0x5#4, 0x6#4, 0xF#4]

/-- R104: the legality of a command word. -/
def legalWord (c : Word) : Bool :=
  reservedBitsClear c &&
    ((!c.getLsbD 8 && plainOps.contains (c.extractLsb' 0 4)) ||
      (c.getLsbD 8 && c.extractLsb' 0 4 == 0x5#4))

end Sys2Proof
end

