-- ==== Sys2Proof/Decode.lean ====
section
/-!
DEFINITION. Decoding a command word (30_encoding.md R100 to R104, R106), total and rejecting by name, and after
it the encoder, written from the table of R103.
-/

namespace Sys2Proof

/-- Why a command word names no command. The block itself reports one cause for all three, ILLEGAL_CMD (R104). -/
inductive DecodeError where
  /-- A bit of 31:9 or 7:4 is 1 (R100). -/
  | reservedBits
  /-- EOS = 1 with an OP other than RECV (R102). -/
  | eosWithoutRecv
  /-- OP is 0x0 or 0x7 to 0xE (R101, R106). -/
  | reservedOp
deriving DecidableEq, Repr

/-- The OP field, bits 3:0 (R100). -/
def opField (c : Word) : BitVec 4 := c.extractLsb' 0 4

/-- The EOS field, bit 8 (R100, R102). -/
def eosField (c : Word) : Bool := c.getLsbD 8

/-- The reserved field, bits 7:4 (R100). -/
def reservedLow (c : Word) : BitVec 4 := c.extractLsb' 4 4

/-- The reserved field, bits 31:9 (R100). -/
def reservedHigh (c : Word) : BitVec 23 := c.extractLsb' 9 23

/-- The command an OP value selects with EOS = 0 (R101); `none` for a reserved value. -/
def commandOfOp (op : BitVec 4) : Option Instr :=
  if op = 0x1#4 then some .crc
  else if op = 0x2#4 then some .append
  else if op = 0x3#4 then some .verify
  else if op = 0x4#4 then some .fenc
  else if op = 0x5#4 then some .recv
  else if op = 0x6#4 then some .send
  else if op = 0xF#4 then some .sreset
  else none

/-- The command a 32-bit command word names (R104): every word is one of the eight legal ones or is rejected. -/
def decode (c : Word) : Except DecodeError Instr :=
  if reservedHigh c ≠ 0#23 ∨ reservedLow c ≠ 0#4 then .error .reservedBits
  else if eosField c then
    if opField c = 0x5#4 then .ok .recvEos else .error .eosWithoutRecv
  else
    match commandOfOp (opField c) with
    | some i => .ok i
    | none => .error .reservedOp

/-- The word of a command (the table of R103). -/
def encode : Instr → Word
  | .crc => 0x00000001#32
  | .append => 0x00000002#32
  | .verify => 0x00000003#32
  | .fenc => 0x00000004#32
  | .recv => 0x00000005#32
  | .recvEos => 0x00000105#32
  | .send => 0x00000006#32
  | .sreset => 0x0000000F#32

/-- The command word whose low `nbits` bits are those of `w` and whose other bits are 0. A command is one 32-bit
word delivered whole by one bus access (R100), so the table's numbering is the word's own. -/
def tableWord (nbits w : Nat) : Word := BitVec.ofNat 32 (w % 2 ^ nbits)

/-- The command the decoder reads from a word numbered as spec/opcode_table.json numbers it; `none` where it rejects. -/
def decodeTableWord (nbits w : Nat) : Option Instr :=
  match decode (tableWord nbits w) with
  | .ok i => some i
  | .error _ => none

end Sys2Proof
end

