-- ==== Sys2Proof/Config.lean ====
section
/-!
DEFINITION. The constants of the block (00_scope.md R9), the reset values of its two parameters, and the free value
that stands for everything the spec calls unspecified (R16).
-/

namespace Sys2Proof

/-- ID: "LUN1" in ASCII, most significant byte first (10_state.md R22). -/
def Config.idWord : Word := 0x4C554E31#32

/-- MAX_PKT_DEFAULT, the reset value of MAX_PKT (R9, R34). -/
def Config.maxPktDefault : Nat := 8192

/-- The default of the parameter BUF_SIZE (R9). -/
def Config.bufSizeDefault : Nat := 8200

/-- The value of the parameter BASE in `State.reset`. DESIGN CHOICE (log 4): the spec leaves BASE open (R75);
no statement of the model depends on it, because `State` holds BASE as a parameter of every value. -/
def Config.baseDefault : Nat := 0

/-- The size of the block's aperture on the bus (R60). -/
def Config.apertureSize : Nat := 0x40000

/-- The free values (R16, `draw()`): the n-th value that the spec leaves unspecified. It has no body, so nothing can be
proved about a value of it; the state's counter `env.draws` makes every draw a new one (log 1). -/
opaque Config.freeValue : Nat → Word

end Sys2Proof
end

