-- ==== Sys2Proof/Machine/State.lean ====
section
/-!
DEFINITION. The state of the machine (10_state.md R49) and the plain data types it and the operations are made of.
-/

namespace Sys2Proof.Machine

/-- The completion codes of STATUS.CAUSE (60_exceptions.md R210). -/
inductive Cause where
  | none          -- 0
  | corruptCrc    -- 1
  | corruptShort  -- 2
  | oversized     -- 3
  | truncPrefix   -- 4
  | truncBody     -- 5
  | frameTooLong  -- 6
  | incomplete    -- 7
  | capacity      -- 8
  | illegalCmd    -- 9
deriving DecidableEq, Repr

/-- Why the machine stops. -/
inductive Fault where
  /-- Raised by a command's meaning when it reads an IN byte that no host write has stored since reset (R43, R214).
  The engine step records it as the fault mark; from then on every step stops with it (R192). SAFE: a real block
  would go on, so claims about such a run become unprovable, none becomes wrongly provable. -/
  | unwrittenInput
deriving DecidableEq, Repr

/-- Why the machine refuses. -/
inductive Refusal where
  /-- Raised by `exec` for an instruction without a meaning yet (none is left). SAFE: no next state is claimed. -/
  | notModelled (mnemonic : String)
  /-- Raised by the engine step in a state with BUSY = 1 whose PEND is no word of R192's case list. R192 says no such
  word can reach PEND, and `State.Inv` rules such states out. SAFE: no next state is claimed. -/
  | pendNotRunnable
deriving DecidableEq, Repr

/-- The width of a bus access (20_memory.md R62). -/
inductive Width where
  | w1
  | w2
  | w4
deriving DecidableEq, Repr

/-- One host access on the bus, at a bus address (R62). In a write, a 1-byte access carries bits 7:0 of the datum and a
2-byte access bits 15:0, which is the rule's `v < 2^(8n)`. -/
inductive Access where
  | read (addr : Nat) (w : Width)
  | write (addr : Nat) (w : Width) (v : Word)
deriving DecidableEq, Repr

/-- What a line of a host program does: one access, or a read repeated until `(data & mask) == val` (30_encoding.md R107). -/
inductive HostOp where
  | access (a : Access)
  | poll (addr : Nat) (mask val : Word)
deriving DecidableEq, Repr

/-- A line of a host program. A line that gets the ERROR response stops the program unless it is marked `?` (R107). -/
structure Line where
  op : HostOp
  marked : Bool
deriving DecidableEq, Repr

/-- The three agents (00_scope.md R10). -/
inductive Agent where
  | host
  | engine
  | resetSource
deriving DecidableEq, Repr

/-- The response that ends a host access (R62, R68). -/
inductive Response where
  | okayRead (data : Word)
  | okayWrite
  | busError
deriving DecidableEq, Repr

/-- The twelve registers of the bank (10_state.md R21). -/
inductive Reg where
  | id
  | cmd
  | status
  | inLen
  | outLen
  | maxPkt
  | crcResult
  | crcExpected
  | frameLen
  | consumed
  | irqEn
  | bufSize
deriving DecidableEq, Repr

/-- What an access that passes checks 1 and 2 of 20_memory.md R70 reaches: a register, or one byte or one aligned
word (four bytes from index `i`) of a buffer window. -/
inductive Target where
  | reg (r : Reg)
  | inByte (i : Nat)
  | inWord (i : Nat)
  | outByte (i : Nat)
  | outWord (i : Nat)
deriving DecidableEq, Repr

/-- A value that a read gives: `value` where `unspec` has a 0 bit, and unspecified (R16) where it has a 1 bit. -/
structure Datum where
  value : Word
  unspec : Word
deriving DecidableEq, Repr

/-- What a completing command writes: OUT and the four stored result registers (R41, 43_control.md R193). A register its
rule does not list gets 0 (R41), which is the default of each field. OUT_LEN is the length of `outSeq`. -/
structure Results where
  outSeq : Bytes := []
  crcRes : Word := 0#32
  crcExp : Word := 0#32
  frameLen : Word := 0#32
  consumed : Nat := 0
deriving DecidableEq, Repr

/-- The record that verifyPacket returns (41_packet.md R141). -/
structure Verdict where
  payload : Bytes
  ok : Bool
  short : Bool
  expected : Word
  computed : Word
deriving DecidableEq, Repr

/-- The five outcomes of frameDecode (42_frame.md R161). -/
inductive FrameOutcome where
  | truncPrefix
  | incomplete (len : Option Nat)
  | tooLong (len : Nat)
  | truncBody (len : Nat)
  | frame (len : Nat) (w : Bytes) (consumed : Nat)
deriving DecidableEq, Repr

/-- The input buffer IN: the written bytes, as (index, byte) pairs with rising indices. An index that is not listed is
unwritten (R42, R43). -/
abbrev Memory := List Host.Cell

/-- The canonical form: indices strictly rise. What an unlisted index reads as is "unwritten", which no entry can say. -/
def Memory.wf : Memory → Bool
  | [] => true
  | [_] => true
  | (k, _) :: (l, c) :: m => k < l && Memory.wf ((l, c) :: m)

/-- The parameters of 00_scope.md R9 that a host can tell apart. No step changes them: holding them in the state makes
every statement hold for every value of them (log 3, log 4). -/
structure Params where
  bufSize : Nat
  base : Nat
deriving DecidableEq, Repr

/-- The world outside the block, as plain data: the model's own fields, none of them hardware state.
`program` is what the host will do, `schedule` which agent moves next (20_memory.md R77), `resp` the block's response to the
host's latest access, `draws` how many free values have been drawn. -/
structure Env where
  program : List Line
  schedule : List Agent
  resp : Option Response
  draws : Nat
deriving DecidableEq, Repr

/-- The whole state: the record of R49, then the parameters, then the outside world. -/
structure State where
  busy : Bool
  done : Bool
  ok : Bool
  accerr : Bool
  cause : Cause
  inLen : Nat
  maxPkt : Nat
  outSeq : Bytes
  crcRes : Word
  crcExp : Word
  frameLen : Word
  consumed : Nat
  doneIE : Bool
  accerrIE : Bool
  inBuf : Memory
  pend : Option Word
  faulted : Option Fault
  params : Params
  env : Env
deriving DecidableEq, Repr

/-- The machine right after reset (R50, 70_reset_and_hazards.md R241), with the default parameters and an outside world
that does nothing (log 2, log 4, log 6). -/
def State.reset : State where
  busy := false
  done := false
  ok := false
  accerr := false
  cause := .none
  inLen := 0
  maxPkt := Config.maxPktDefault
  outSeq := []
  crcRes := 0#32
  crcExp := 0#32
  frameLen := 0#32
  consumed := 0
  doneIE := false
  accerrIE := false
  inBuf := []
  pend := none
  faulted := none
  params := { bufSize := Config.bufSizeDefault, base := Config.baseDefault }
  env := { program := [], schedule := [], resp := none, draws := 0 }

/-- What the machine's operations answer. -/
abbrev Result := Host.Outcome State Fault Refusal

end Sys2Proof.Machine
end

