-- ==== Sys2Proof/Machine/Ops.lean ====
section
/-!
DEFINITION. The named operations over the state: the bytes of IN, the end of a command, accepting and rejecting a command
word, reset, the fault mark, bus responses and free values.
-/

namespace Sys2Proof.Machine

/-! The input buffer IN (10_state.md R42, R43). -/

/-- The byte of IN at an index; `none` if no host write has stored one since reset (R43). -/
def Memory.read : Memory → Nat → Option Byte
  | [], _ => none
  | (k, b) :: m, i => if k = i then some b else Memory.read m i

/-- Store a byte of IN and mark it written (R43, 20_memory.md R64). The canonical form is kept. -/
def Memory.write : Memory → Nat → Byte → Memory
  | [], i, b => [(i, b)]
  | (k, c) :: m, i, b =>
    if i < k then (i, b) :: (k, c) :: m
    else if i = k then (i, b) :: m
    else (k, c) :: Memory.write m i b

/-- The bytes of IN from index `i` on, `n` of them; `none` if one of them is unwritten. -/
def Memory.slice (m : Memory) : Nat → Nat → Option Bytes
  | _, 0 => some []
  | i, n + 1 =>
    match Memory.read m i with
    | none => none
    | some b =>
      match Memory.slice m (i + 1) n with
      | none => none
      | some p => some (b :: p)

/-- Store the four bytes of a word, least significant byte at the lowest index (R64, R67). -/
def Memory.writeWord (m : Memory) (i : Nat) (v : Word) : Memory :=
  Memory.write (Memory.write (Memory.write (Memory.write m i (v.extractLsb' 0 8)) (i + 1) (v.extractLsb' 8 8))
    (i + 2) (v.extractLsb' 16 8)) (i + 3) (v.extractLsb' 24 8)

/-! Commands: acceptance, completion, rejection (43_control.md R191, R193, R194). -/

/-- `complete(cause)` with the results of the command (R193, R41): the only operation that writes OUT and the result
registers outside a reset. -/
def complete (cause : Cause) (r : Results) (s : State) : State :=
  { s with
    outSeq := r.outSeq
    crcRes := r.crcRes
    crcExp := r.crcExp
    frameLen := r.frameLen
    consumed := r.consumed
    cause := cause
    ok := decide (cause = .none)
    done := true
    busy := false
    pend := none }

/-- Acceptance of a legal command word other than SRESET (R191). -/
def accept (c : Word) (s : State) : State :=
  { s with pend := some c, busy := true, done := false }

/-- An illegal command word written while BUSY = 0 (R194). -/
def rejectIllegal (s : State) : State :=
  { s with cause := .illegalCmd, ok := false, done := true }

/-- A reset: the reset input or an accepted SRESET (70_reset_and_hazards.md R240, R241, 43_control.md R195). The fault mark
is not cleared (R50, R243); the parameters and the outside world are no state of the block. -/
def resetBlock (s : State) : State :=
  { State.reset with faulted := s.faulted, params := s.params, env := s.env }

/-- Set the model's fault mark (R43, R192). What else the marked state holds is not observable: it has no further step. -/
def markFault (f : Fault) (s : State) : State := { s with faulted := some f }

/-! Control registers (43_control.md R197, R198; 10_state.md R32, R34). -/

/-- A write to STATUS: bits 1 and 3 are write-1-to-clear, every other bit is ignored (R197, R31). -/
def writeStatus (v : Word) (s : State) : State :=
  { s with done := s.done && !v.getLsbD 1, accerr := s.accerr && !v.getLsbD 3 }

/-- A write to IRQ_EN (R198). -/
def writeIrqEn (v : Word) (s : State) : State :=
  { s with doneIE := v.getLsbD 0, accerrIE := v.getLsbD 1 }

/-- An accepted write to IN_LEN (R32). -/
def writeInLen (v : Word) (s : State) : State := { s with inLen := v.toNat }

/-- An accepted write to MAX_PKT (R34). -/
def writeMaxPkt (v : Word) (s : State) : State := { s with maxPkt := v.toNat }

/-- An accepted 1-byte write to IN[i] (R64). -/
def storeByte (i : Nat) (v : Word) (s : State) : State :=
  { s with inBuf := Memory.write s.inBuf i (v.extractLsb' 0 8) }

/-- An accepted 4-byte write to IN[i .. i+3] (R64). -/
def storeWord (i : Nat) (v : Word) (s : State) : State :=
  { s with inBuf := Memory.writeWord s.inBuf i v }

/-- A write refused while BUSY = 1 sets ACCERR (20_memory.md R69). -/
def setAccErr (s : State) : State := { s with accerr := true }

/-! The outside world. -/

/-- The block's response to the access under way. -/
def respond (r : Response) (s : State) : State := { s with env := { s.env with resp := some r } }

/-- The access under way is none of the block's: it gives no response (log 6). -/
def noResponse (s : State) : State := { s with env := { s.env with resp := none } }

/-- A BusError: the ERROR response and nothing else (R68). -/
def busError (s : State) : State := respond .busError s

/-- One free value has been drawn. -/
def countDraw (s : State) : State := { s with env := { s.env with draws := s.env.draws + 1 } }

/-- The bits of a datum as a read returns them: the exact bits as they are, the unspecified ones from a free word (R16). -/
def Datum.fill (d : Datum) (free : Word) : Word := (d.value &&& ~~~d.unspec) ||| (free &&& d.unspec)

/-- The OKAY response of a read. A datum with unspecified bits draws a fresh free value (R16, log 1). -/
def respondRead (d : Datum) (s : State) : State :=
  if d.unspec = 0#32 then respond (.okayRead d.value) s
  else countDraw (respond (.okayRead (d.fill (Config.freeValue s.env.draws))) s)

/-- Remove the agent that has just moved from the schedule. -/
def popAgent (rest : List Agent) (s : State) : State := { s with env := { s.env with schedule := rest } }

/-- The host's program after the line just run. -/
def setProgram (p : List Line) (s : State) : State := { s with env := { s.env with program := p } }

end Sys2Proof.Machine
end

