-- ==== Sys2Proof/Machine/Operands.lean ====
section
/-!
DEFINITION. Operands: the big-endian fields of the wire format (00_scope.md R13, 30_encoding.md R90), the bytes of IN that a
command reads (10_state.md R43), and the little-endian lanes of a bus read (20_memory.md R64, R65, R67).
-/

namespace Sys2Proof.Machine

/-- `be32(x)`: four bytes, the most significant first (R13). -/
def be32 (x : Word) : Bytes :=
  [x.extractLsb' 24 8, x.extractLsb' 16 8, x.extractLsb' 8 8, x.extractLsb' 0 8]

/-- `be32dec(s)`: the value of a big-endian byte sequence (R13; every use is on four bytes). -/
def be32dec (s : Bytes) : Word := s.foldl (fun v b => (v <<< 8) ||| b.setWidth 32) 0#32

/-- Run `k` on the operand bytes `IN[a : a + n]`, or stop with fault(UnwrittenInput) if one of them is unwritten (R43). -/
def withInput (s : State) (a n : Nat) (k : Bytes → Result) : Result :=
  match Memory.slice s.inBuf a n with
  | some p => k p
  | none => .fault .unwrittenInput

/-- The eight unspecified bits of an unreadable byte, and none of a readable one. -/
def byteMask : Option Byte → Byte
  | some _ => 0x00#8
  | none => 0xFF#8

/-- A byte read, `zext_32` (R64, R65): the upper bits are exact, the byte is unspecified if there is none to give. -/
def datumOfByte (b : Option Byte) : Datum :=
  { value := (b.getD 0#8).setWidth 32, unspec := (byteMask b).setWidth 32 }

/-- A 4-byte read: the byte at the lowest address in bits 7:0 (R67); each byte that is not there to give is unspecified. -/
def datumOfLanes (b0 b1 b2 b3 : Option Byte) : Datum :=
  { value := b3.getD 0#8 ++ b2.getD 0#8 ++ b1.getD 0#8 ++ b0.getD 0#8
    unspec := byteMask b3 ++ byteMask b2 ++ byteMask b1 ++ byteMask b0 }

/-- A host read of `OUT[i]`: exact when BUSY = 0 and i < OUT_LEN, else unspecified (R45). -/
def outByte (s : State) (i : Nat) : Option Byte := if s.busy then none else s.outSeq[i]?

end Sys2Proof.Machine
end

