-- ==== Sys2Proof/Machine/Flags.lean ====
section
/-!
DEFINITION. Flags: cause codes, FATAL, the STATUS word, the interrupt line, and every register as a host read sees it
(10_state.md R21 to R41, 60_exceptions.md R210, R222).
-/

namespace Sys2Proof.Machine

/-- The 4-bit code of a cause (R210). -/
def causeCode : Cause → BitVec 4
  | .none => 0
  | .corruptCrc => 1
  | .corruptShort => 2
  | .oversized => 3
  | .truncPrefix => 4
  | .truncBody => 5
  | .frameTooLong => 6
  | .incomplete => 7
  | .capacity => 8
  | .illegalCmd => 9

/-- The causes of the fatal class (R29, R211). -/
def causeFatal : Cause → Bool
  | .none => false
  | .corruptCrc => false
  | .corruptShort => false
  | .oversized => false
  | .truncPrefix => true
  | .truncBody => true
  | .frameTooLong => true
  | .incomplete => false
  | .capacity => false
  | .illegalCmd => false

/-- STATUS.FATAL, which is not stored (R29). -/
def fatal (s : State) : Bool := causeFatal s.cause

/-- STATUS, laid out as R24 gives it, most significant field first. -/
def statusWord (s : State) : Word :=
  0#20 ++ causeCode s.cause ++ 0#3 ++ BitVec.ofBool (fatal s) ++ BitVec.ofBool s.accerr ++ BitVec.ofBool s.ok ++
    BitVec.ofBool s.done ++ BitVec.ofBool s.busy

/-- The bits of STATUS that are unspecified while BUSY = 1: OK, FATAL and CAUSE (R27, R29, R30, R41). -/
def statusFreeBits : Word := 0x00000F14#32

/-- IRQ_EN as a host reads it (R39). -/
def irqEnWord (s : State) : Word := 0#30 ++ BitVec.ofBool s.accerrIE ++ BitVec.ofBool s.doneIE

/-- The interrupt output (R48, R222). -/
def irq (s : State) : Bool := (s.done && s.doneIE) || (s.accerr && s.accerrIE)

/-- A value that is exact at all times. -/
def exact (v : Word) : Datum := { value := v, unspec := 0#32 }

/-- A value that is exact while BUSY = 0 and has the unspecified bits `m` while BUSY = 1 (R41). -/
def freeWhileBusy (m : Word) (s : State) (v : Word) : Datum :=
  { value := v, unspec := if s.busy then m else 0#32 }

/-- A register as a host read sees it (R21 to R41). -/
def readReg (r : Reg) (s : State) : Datum :=
  match r with
  | .id => exact Config.idWord
  | .cmd => exact 0#32
  | .status => freeWhileBusy statusFreeBits s (statusWord s)
  | .inLen => exact (BitVec.ofNat 32 s.inLen)
  | .outLen => freeWhileBusy (BitVec.allOnes 32) s (BitVec.ofNat 32 s.outSeq.length)
  | .maxPkt => exact (BitVec.ofNat 32 s.maxPkt)
  | .crcResult => freeWhileBusy (BitVec.allOnes 32) s s.crcRes
  | .crcExpected => freeWhileBusy (BitVec.allOnes 32) s s.crcExp
  | .frameLen => freeWhileBusy (BitVec.allOnes 32) s s.frameLen
  | .consumed => freeWhileBusy (BitVec.allOnes 32) s (BitVec.ofNat 32 s.consumed)
  | .irqEn => exact (irqEnWord s)
  | .bufSize => exact (BitVec.ofNat 32 s.params.bufSize)

end Sys2Proof.Machine
end

