-- ==== Sys2Proof/Machine/Crc.lean ====
section
/-!
DEFINITION. The CRC-32 generator and the CRC command (40_crc.md).
-/

namespace Sys2Proof.Machine

/-- One bit of the CRC loop: shift right, and add the reflected generator if a 1 fell out (R121). -/
def crcBit (c : Word) : Word :=
  if c.getLsbD 0 then (c >>> 1) ^^^ 0xEDB88320#32 else c >>> 1

/-- `repeat n times` of the loop of R121. -/
def crcBits : Nat → Word → Word
  | 0, c => c
  | n + 1, c => crcBits n (crcBit c)

/-- One byte of the CRC loop, bit 0 first (R121). -/
def crcByte (c : Word) (b : Byte) : Word := crcBits 8 (c ^^^ b.setWidth 32)

/-- The loop of R121 over a byte sequence, from a register value. -/
def crcLoop (c : Word) (s : Bytes) : Word := s.foldl crcByte c

/-- `crc32(s)`, CRC-32/IEEE (R120, R121). -/
def crc32 (s : Bytes) : Word := crcLoop 0xFFFFFFFF#32 s ^^^ 0xFFFFFFFF#32

/-- `crc0(s)`: the loop with initial value 0 and final XOR 0 (R126). -/
def crc0 (s : Bytes) : Word := crcLoop 0#32 s

/-- The table T of the byte-at-a-time form (R122). -/
def crcTable (k : Byte) : Word := crcBits 8 (k.setWidth 32)

/-- One byte of the table form (R122). -/
def crcTableByte (c : Word) (b : Byte) : Word :=
  crcTable ((c ^^^ b.setWidth 32).extractLsb' 0 8) ^^^ (c >>> 8)

/-- `crc32(s)` in the table form (R122). -/
def crc32ByTable (s : Bytes) : Word := s.foldl crcTableByte 0xFFFFFFFF#32 ^^^ 0xFFFFFFFF#32

/-- CRC: the CRC-32 of `IN[0 : IN_LEN]` (R125). -/
def execCrc (s : State) : Result :=
  withInput s 0 s.inLen fun p => .next (complete .none { crcRes := crc32 p } s)

end Sys2Proof.Machine
end

