-- ==== Sys2Proof/Machine/Packet.lean ====
section
/-!
DEFINITION. The checksum appender and the packet verifier, and the commands APPEND and VERIFY (41_packet.md).
-/

namespace Sys2Proof.Machine

/-- `appendCRC(p) = p ++ be32(crc32(p))` (R140). -/
def appendCRC (p : Bytes) : Bytes := p ++ be32 (crc32 p)

/-- The payload part of a Wire Unit of at least four bytes: `w[0 : len-4]` (R141). -/
def payloadOf (w : Bytes) : Bytes := w.take (w.length - 4)

/-- The trailer of a Wire Unit of at least four bytes: `w[len-4 : len]` (R141). -/
def trailerOf (w : Bytes) : Bytes := w.drop (w.length - 4)

/-- `verifyPacket(w)` (R141, R142): the length check first, then the comparison; the payload whatever the comparison says. -/
def verifyPacket (w : Bytes) : Verdict :=
  if w.length < 4 then { payload := [], ok := false, short := true, expected := 0#32, computed := 0#32 }
  else
    { payload := payloadOf w
      ok := crc32 (payloadOf w) == be32dec (trailerOf w)
      short := false
      expected := be32dec (trailerOf w)
      computed := crc32 (payloadOf w) }

/-- APPEND: the payload and its big-endian CRC-32 (R143). The capacity check comes first and reads no IN byte (R217). -/
def execAppend (s : State) : Result :=
  if s.inLen + 4 > s.params.bufSize then .next (complete .capacity {} s)
  else
    withInput s 0 s.inLen fun p =>
      .next (complete .none { outSeq := appendCRC p, crcRes := crc32 p } s)

/-- VERIFY: check a Wire Unit and extract its payload (R144). The length check comes first and reads no IN byte. -/
def execVerify (s : State) : Result :=
  if s.inLen < 4 then .next (complete .corruptShort {} s)
  else
    withInput s 0 s.inLen fun w =>
      .next (complete (if (verifyPacket w).ok then .none else .corruptCrc)
        { outSeq := (verifyPacket w).payload
          crcRes := (verifyPacket w).computed
          crcExp := (verifyPacket w).expected } s)

end Sys2Proof.Machine
end

