-- ==== Sys2Proof/Machine/Frame.lean ====
section
/-!
DEFINITION. The frame length prepender, the frame decoder, and the commands FENC, RECV, RECV.EOS and SEND (42_frame.md).
-/

namespace Sys2Proof.Machine

/-- `frameEncode(w) = be32(len(w)) ++ w` (R160, for `len(w) < 2^32`). -/
def frameEncode (w : Bytes) : Bytes := be32 (BitVec.ofNat 32 w.length) ++ w

/-- `frameDecode(s, eos, maxPkt)` once the prefix has given the length `len` (R161). -/
def frameDecodeBody (s : Bytes) (eos : Bool) (maxPkt len : Nat) : FrameOutcome :=
  if len > maxPkt + 4 then .tooLong len
  else if s.length - 4 < len then (if eos then .truncBody len else .incomplete (some len))
  else .frame len ((s.drop 4).take len) (4 + len)

/-- `frameDecode(s, eos, maxPkt)` (R161). -/
def frameDecode (s : Bytes) (eos : Bool) (maxPkt : Nat) : FrameOutcome :=
  if s.length < 4 then (if eos then .truncPrefix else .incomplete none)
  else frameDecodeBody s eos maxPkt (be32dec (s.take 4)).toNat

/-- FENC: prepend the big-endian length (R162). Nothing but the capacity is checked. -/
def execFenc (s : State) : Result :=
  if s.inLen + 4 > s.params.bufSize then .next (complete .capacity {} s)
  else
    withInput s 0 s.inLen fun w =>
      .next (complete .none { outSeq := frameEncode w, frameLen := BitVec.ofNat 32 s.inLen } s)

/-- The end of RECV once a full Frame with prefix `len` and Wire Unit `w` is there (R163). -/
def recvVerdict (len : Word) (w : Bytes) (s : State) : Result :=
  if (verifyPacket w).short then
    .next (complete .corruptShort { frameLen := len, consumed := 4 + len.toNat } s)
  else
    .next (complete (if (verifyPacket w).ok then .none else .corruptCrc)
      { outSeq := (verifyPacket w).payload
        crcRes := (verifyPacket w).computed
        crcExp := (verifyPacket w).expected
        frameLen := len
        consumed := 4 + len.toNat } s)

/-- RECV from the decoded prefix on (R163): the bound, then the body, then the verdict. -/
def recvBody (eos : Bool) (len : Word) (s : State) : Result :=
  if len.toNat > s.maxPkt + 4 then .next (complete .frameTooLong { frameLen := len } s)
  else if s.inLen - 4 < len.toNat then
    .next (complete (if eos then .truncBody else .incomplete) { frameLen := len } s)
  else withInput s 4 len.toNat fun w => recvVerdict len w s

/-- RECV with the EOS bit as an argument (R163): only the bytes the steps need are read. -/
def recvFrame (eos : Bool) (s : State) : Result :=
  if s.inLen < 4 then .next (complete (if eos then .truncPrefix else .incomplete) {} s)
  else withInput s 0 4 fun p => recvBody eos (be32dec p) s

/-- RECV, EOS = 0 (R163). -/
def execRecv (s : State) : Result := recvFrame false s

/-- RECV.EOS, EOS = 1 (R163). -/
def execRecvEos (s : State) : Result := recvFrame true s

/-- SEND: size check, AppendCRC, length prefix (R164). The size check comes first and reads no IN byte. -/
def execSend (s : State) : Result :=
  if s.inLen > s.maxPkt then .next (complete .oversized {} s)
  else
    withInput s 0 s.inLen fun p =>
      .next (complete .none
        { outSeq := frameEncode (appendCRC p)
          crcRes := crc32 p
          frameLen := BitVec.ofNat 32 (s.inLen + 4) } s)

end Sys2Proof.Machine
end

