-- ==== Sys2Proof/Machine/Control.lean ====
section
/-!
DEFINITION. The control command SRESET (43_control.md R195).
-/

namespace Sys2Proof.Machine

/-- SRESET: every field of the block to its reset value, the fault mark kept; a running command is abandoned and gives no
completion (R195, 70_reset_and_hazards.md R240). -/
def execSreset (s : State) : Result := .next (resetBlock s)

end Sys2Proof.Machine
end

