-- ==== Sys2Proof/Machine/Dispatch.lean ====
section
/-!
DEFINITION. What each command does: one arm per constructor, one meaning per arm (R192, R195).
-/

namespace Sys2Proof.Machine

def exec (i : Instr) (s : State) : Host.Outcome State Fault Refusal :=
  match i with
  | .crc => Sys2Proof.Machine.execCrc s
  | .append => Sys2Proof.Machine.execAppend s
  | .verify => Sys2Proof.Machine.execVerify s
  | .fenc => Sys2Proof.Machine.execFenc s
  | .recv => Sys2Proof.Machine.execRecv s
  | .recvEos => Sys2Proof.Machine.execRecvEos s
  | .send => Sys2Proof.Machine.execSend s
  | .sreset => Sys2Proof.Machine.execSreset s

end Sys2Proof.Machine
end

