-- ==== Sys2Proof/Machine/Engine.lean ====
section
/-!
DEFINITION. The engine step (43_control.md R192).
-/

namespace Sys2Proof.Machine

/-- Run the decoded command in one atomic step. A fault of the command sets the fault mark (R192). -/
def runCommand (i : Instr) (s : State) : Result :=
  match exec i s with
  | .next t => .next t
  | .fault f => .next (markFault f s)
  | .refused r => .refused r

/-- The engine step on the latched word: the six OP values of R192's case list, RECV with either EOS. -/
def runPend (c : Word) (s : State) : Result :=
  match decode c with
  | .ok .sreset => .refused .pendNotRunnable
  | .ok i => runCommand i s
  | .error _ => .refused .pendNotRunnable

/-- The engine's move. It is enabled exactly when BUSY = 1 (R192; the fault mark is checked by the step); not enabled, it does
nothing. -/
def engineMove (s : State) : Result :=
  if s.busy then
    match s.pend with
    | some c => runPend c s
    | none => .refused .pendNotRunnable
  else .next s

end Sys2Proof.Machine
end

