-- ==== Sys2Proof/Machine/Bus.lean ====
section
/-!
DEFINITION. Host accesses on the bus (20_memory.md) and the write to CMD (43_control.md R190).
-/

namespace Sys2Proof.Machine

/-- The offset of a bus address in the block's aperture (R60, R75); `none` outside it, where the block is not addressed. -/
def apertureOffset (p : Params) (addr : Nat) : Option Nat :=
  if p.base ≤ addr ∧ addr < p.base + Config.apertureSize then some (addr - p.base) else none

/-- The register at an offset of the bank (10_state.md R21). -/
def regAt (o : Nat) : Option Reg :=
  match o with
  | 0x000 => some .id
  | 0x004 => some .cmd
  | 0x008 => some .status
  | 0x00C => some .inLen
  | 0x010 => some .outLen
  | 0x014 => some .maxPkt
  | 0x018 => some .crcResult
  | 0x01C => some .crcExpected
  | 0x020 => some .frameLen
  | 0x024 => some .consumed
  | 0x028 => some .irqEn
  | 0x02C => some .bufSize
  | _ => none

/-- The part of a window that a 1-byte or an aligned 4-byte access at index `i` reaches; any other access fails (R64, R65, R71). -/
def windowTarget (byteAt wordAt : Nat → Target) (i : Nat) (w : Width) : Option Target :=
  match w with
  | .w1 => some (byteAt i)
  | .w2 => none
  | .w4 => if i % 4 = 0 then some (wordAt i) else none

/-- Checks 1 and 2 of R70 with the regions of R61: what an access at an offset reaches, `none` where one of them fails. The
register bank takes 4-byte accesses at multiples of 4 (R63), which are the offsets of `regAt`. -/
def targetAt (bufSize o : Nat) (w : Width) : Option Target :=
  if o < 0x30 then
    (if w = .w4 then (regAt o).map .reg else none)
  else if o < 0x10000 then none
  else if o < 0x20000 then
    (if o - 0x10000 < bufSize then windowTarget .inByte .inWord (o - 0x10000) w else none)
  else if o < 0x30000 then
    (if o - 0x20000 < bufSize then windowTarget .outByte .outWord (o - 0x20000) w else none)
  else none

/-- Check 3 of R70: no write to a read-only register (R21) or to the OUT window. STATUS takes writes (R31). -/
def writable : Target → Bool
  | .reg .id => false
  | .reg .cmd => true
  | .reg .status => true
  | .reg .inLen => true
  | .reg .outLen => false
  | .reg .maxPkt => true
  | .reg .crcResult => false
  | .reg .crcExpected => false
  | .reg .frameLen => false
  | .reg .consumed => false
  | .reg .irqEn => true
  | .reg .bufSize => false
  | .inByte _ => true
  | .inWord _ => true
  | .outByte _ => false
  | .outWord _ => false

/-- Check 4 of R70: the writes that are refused while BUSY = 1 (R69). Of the CMD writes, only the exact SRESET word is not. -/
def refusedWhileBusy (t : Target) (v : Word) : Bool :=
  match t with
  | .inByte _ => true
  | .inWord _ => true
  | .reg .inLen => true
  | .reg .maxPkt => true
  | .reg .cmd => v != 0x0000000F#32
  | _ => false

/-- Check 5 of R70: the value ranges of IN_LEN (R32) and MAX_PKT (R34). -/
def valueLegal (p : Params) (t : Target) (v : Word) : Bool :=
  match t with
  | .reg .inLen => decide (v.toNat ≤ p.bufSize)
  | .reg .maxPkt => decide (v.toNat + 8 ≤ p.bufSize)
  | _ => true

/-- What a read of a target gives (R63 to R65). -/
def readTarget (t : Target) (s : State) : Datum :=
  match t with
  | .reg r => readReg r s
  | .inByte i => datumOfByte (Memory.read s.inBuf i)
  | .inWord i =>
    datumOfLanes (Memory.read s.inBuf i) (Memory.read s.inBuf (i + 1)) (Memory.read s.inBuf (i + 2))
      (Memory.read s.inBuf (i + 3))
  | .outByte i => datumOfByte (outByte s i)
  | .outWord i => datumOfLanes (outByte s i) (outByte s (i + 1)) (outByte s (i + 2)) (outByte s (i + 3))

/-- `MemRead(BASE + o, w)` (R62, R68, R73). -/
def hostRead (o : Nat) (w : Width) (s : State) : State :=
  match targetAt s.params.bufSize o w with
  | none => busError s
  | some t => respondRead (readTarget t s) s

/-- A result with the OKAY response of a write. -/
def okayWrite (r : Result) : Result :=
  match r with
  | .next t => .next (respond .okayWrite t)
  | .fault f => .fault f
  | .refused x => .refused x

/-- A write to CMD that is not refused (43_control.md R190): SRESET runs at once, an illegal word completes at once with
ILLEGAL_CMD (R194), any other legal word is accepted (R191). -/
def writeCmd (c : Word) (s : State) : Result :=
  match decode c with
  | .ok .sreset => exec .sreset s
  | .ok _ => .next (accept c s)
  | .error _ => .next (rejectIllegal s)

/-- A write that has passed the five checks of R70. The targets that check 3 has turned away give the error again. -/
def performWrite (t : Target) (v : Word) (s : State) : Result :=
  match t with
  | .reg .cmd => okayWrite (writeCmd v s)
  | .reg .status => okayWrite (.next (writeStatus v s))
  | .reg .inLen => okayWrite (.next (writeInLen v s))
  | .reg .maxPkt => okayWrite (.next (writeMaxPkt v s))
  | .reg .irqEn => okayWrite (.next (writeIrqEn v s))
  | .inByte i => okayWrite (.next (storeByte i v s))
  | .inWord i => okayWrite (.next (storeWord i v s))
  | _ => .next (busError s)

/-- Checks 3 to 5 of R70, in their order, and then the write. -/
def writeTarget (t : Target) (v : Word) (s : State) : Result :=
  if writable t = false then .next (busError s)
  else if s.busy && refusedWhileBusy t v then .next (busError (setAccErr s))
  else if valueLegal s.params t v = false then .next (busError s)
  else performWrite t v s

/-- `MemWrite(BASE + o, w, v)` (R62, R70). -/
def hostWrite (o : Nat) (w : Width) (v : Word) (s : State) : Result :=
  match targetAt s.params.bufSize o w with
  | none => .next (busError s)
  | some t => writeTarget t v s

/-- One access of the host (R62). An access outside the aperture does not reach the block (log 6). -/
def hostAccess (a : Access) (s : State) : Result :=
  match a with
  | .read addr w =>
    match apertureOffset s.params addr with
    | some o => .next (hostRead o w s)
    | none => .next (noResponse s)
  | .write addr w v =>
    match apertureOffset s.params addr with
    | some o => hostWrite o w v s
    | none => .next (noResponse s)

end Sys2Proof.Machine
end

