-- ==== Sys2Proof/Machine/Program.lean ====
section
/-!
DEFINITION. The host as an agent: its program notation (30_encoding.md R107, R108) and its move.
-/

namespace Sys2Proof.Machine

/-! The lines of R107, at an offset from BASE. -/

/-- `WR32 off, v`. -/
def wr32 (p : Params) (off : Nat) (v : Word) : Line := { op := .access (.write (p.base + off) .w4 v), marked := false }

/-- `WR8 off, v`. -/
def wr8 (p : Params) (off : Nat) (v : Byte) : Line :=
  { op := .access (.write (p.base + off) .w1 (v.setWidth 32)), marked := false }

/-- `RD32 off`. -/
def rd32 (p : Params) (off : Nat) : Line := { op := .access (.read (p.base + off) .w4), marked := false }

/-- `RD8 off`. -/
def rd8 (p : Params) (off : Nat) : Line := { op := .access (.read (p.base + off) .w1), marked := false }

/-- `POLL off, mask, val`. -/
def pollLine (p : Params) (off : Nat) (mask val : Word) : Line := { op := .poll (p.base + off) mask val, marked := false }

/-- The mark `?`: an ERROR response does not stop the program. -/
def markLine (l : Line) : Line := { l with marked := true }

/-! The pseudo-instructions of R108. -/

/-- The byte writes of `LOADIN`, from index `i` on. -/
def loadBytes (p : Params) : Nat → Bytes → List Line
  | _, [] => []
  | i, b :: bs => wr8 p (0x10000 + i) b :: loadBytes p (i + 1) bs

/-- `LOADIN b0 b1 ...`. -/
def loadIn (p : Params) (bs : Bytes) : List Line := loadBytes p 0 bs ++ [wr32 p 0x00C (BitVec.ofNat 32 bs.length)]

/-- `START m`. -/
def startLine (p : Params) (i : Instr) : Line := wr32 p 0x004 (encode i)

/-- `WAIT`: until BUSY = 0. -/
def waitLine (p : Params) : Line := pollLine p 0x008 0x00000001#32 0x00000000#32

/-- `ACK`: clears DONE and ACCERR. -/
def ackLine (p : Params) : Line := wr32 p 0x008 0x0000000A#32

/-- The access of a line: a POLL line is a 4-byte read. -/
def lineAccess (op : HostOp) : Access :=
  match op with
  | .access a => a
  | .poll addr _ _ => .read addr .w4

/-- What is left of the program after a line has got its response (R107): an ERROR ends the program unless the line is
marked; a POLL whose condition does not hold yet stands again; else the next line follows. -/
def programAfter (l : Line) (rest : List Line) (r : Option Response) : List Line :=
  match r with
  | some .busError => if l.marked then rest else []
  | some (.okayRead d) =>
    match l.op with
    | .poll _ mask val => if d &&& mask = val then rest else l :: rest
    | .access _ => rest
  | some .okayWrite => rest
  | none => rest

/-- The host's move: one access, the next of its program (R10, R62); none when the program is over. -/
def hostMove (s : State) : Result :=
  match s.env.program with
  | [] => .next s
  | l :: rest =>
    match hostAccess (lineAccess l.op) s with
    | .next t => .next (setProgram (programAfter l rest t.env.resp) t)
    | .fault f => .fault f
    | .refused x => .refused x

/-- The move of an agent (R10, R77). -/
def agentMove (a : Agent) (s : State) : Result :=
  match a with
  | .host => hostMove s
  | .engine => engineMove s
  | .resetSource => .next (resetBlock s)

/-- One atomic step of the interleaving (R77): the agent that the schedule names moves. When the schedule is used up, an
enabled engine step comes first (the weak fairness of R253) and then the host. -/
def interleave (s : State) : Result :=
  match s.env.schedule with
  | a :: rest => agentMove a (popAgent rest s)
  | [] => if s.busy then engineMove s else hostMove s

/-- A marked state has no further step (R192, R214). -/
def stepMachine (s : State) : Result :=
  match s.faulted with
  | some f => .fault f
  | none => interleave s

/-- The state whose very next step runs the command word `c` (log 5): a word the engine runs is latched as its acceptance
latches it (R191) and the engine moves next; any other word is written to CMD by the host's next move, since SRESET and
illegal words never reach PEND (R190, R194, R195). A fault mark, under which nothing runs, is taken away. -/
def placeCommand (c : Word) (s : State) : State :=
  match decode c with
  | .ok .sreset =>
    { s with faulted := none
             env := { s.env with program := wr32 s.params 0x004 c :: s.env.program, schedule := .host :: s.env.schedule } }
  | .ok _ =>
    { accept c s with faulted := none, env := { s.env with schedule := .engine :: s.env.schedule } }
  | .error _ =>
    { s with faulted := none
             env := { s.env with program := wr32 s.params 0x004 c :: s.env.program, schedule := .host :: s.env.schedule } }

end Sys2Proof.Machine
end

