-- ==== Sys2Proof/Machine/Step.lean ====
section
/-!
DEFINITION. The step function, and how a command is placed where the next step runs it.
-/

namespace Sys2Proof.Machine

/-- One step of the machine: one atomic step of one agent (20_memory.md R77). -/
def step (s : State) : Host.Outcome State Fault Refusal := stepMachine s

/-- `s` with the command word `w`, numbered as spec/opcode_table.json numbers it, placed so that the very next step runs it. -/
def State.withFetchWord (s : State) (nbits w : Nat) : State := placeCommand (tableWord nbits w) s

end Sys2Proof.Machine
end

