-- ==== Sys2Proof/Safety.lean ====
section
/-!
DEFINITION. The terms in which claims about the machine are stated: the invariant of every reachable state, what IN holds,
which agent moves, and the end of a run.
-/

namespace Sys2Proof.Machine

/-- The parameters are ones that 00_scope.md R9 admits. -/
abbrev Params.Admitted (p : Params) : Prop :=
  8200 ≤ p.bufSize ∧ p.bufSize ≤ 65536 ∧ p.bufSize % 4 = 0 ∧ p.base % 0x40000 = 0

/-- A command word that the engine runs: a legal one other than SRESET (43_control.md R191, R192). -/
def runnableWord (c : Word) : Bool := legalWord c && c != 0x0000000F#32

/-- PEND is present exactly when BUSY = 1, and then it is a word the engine runs (10_state.md R46, 43_control.md R192). -/
def State.pendOk (s : State) : Bool :=
  match s.pend with
  | some c => s.busy && runnableWord c
  | none => !s.busy

/-- What every reachable state keeps: the bounds of the record of 10_state.md R49, the canonical form of IN inside BUF_SIZE,
PEND present exactly when BUSY = 1 (R46), DONE = 0 while BUSY = 1 (R26), and OK = 1 only with cause NONE (R27). -/
abbrev State.Inv (s : State) : Prop :=
  s.params.Admitted ∧
  s.inLen ≤ s.params.bufSize ∧
  s.maxPkt + 8 ≤ s.params.bufSize ∧
  s.outSeq.length ≤ s.params.bufSize ∧
  s.consumed ≤ s.params.bufSize ∧
  Memory.wf s.inBuf = true ∧
  (∀ c ∈ s.inBuf, c.1 < s.params.bufSize) ∧
  s.pendOk = true ∧
  (s.busy = true → s.done = false) ∧
  (s.ok = true → s.cause = .none)

/-- IN holds the byte sequence `p` from index `a` on, every byte of it written. -/
abbrev State.inHolds (s : State) (a : Nat) (p : Bytes) : Prop :=
  ∀ i, i < p.length → Memory.read s.inBuf (a + i) = p[i]?

/-- The operand of a command that reads all of its input: `IN[0 : IN_LEN]` is `p`, all of it written. -/
abbrev State.inputIs (s : State) (p : Bytes) : Prop := p.length = s.inLen ∧ s.inHolds 0 p

/-- Some byte of `IN[a : a + n]` is unwritten. -/
abbrev State.inLacks (s : State) (a n : Nat) : Prop :=
  ∃ i, i < n ∧ Memory.read s.inBuf (a + i) = none

/-- What RECV ends with for each outcome of frameDecode, a whole Frame being verified: the table of 42_frame.md R163. -/
def recvRecord (o : FrameOutcome) : Cause × Results :=
  match o with
  | .truncPrefix => (.truncPrefix, {})
  | .incomplete none => (.incomplete, {})
  | .incomplete (some l) => (.incomplete, { frameLen := BitVec.ofNat 32 l })
  | .tooLong l => (.frameTooLong, { frameLen := BitVec.ofNat 32 l })
  | .truncBody l => (.truncBody, { frameLen := BitVec.ofNat 32 l })
  | .frame l w n =>
    if (verifyPacket w).short then (.corruptShort, { frameLen := BitVec.ofNat 32 l, consumed := n })
    else
      (if (verifyPacket w).ok then .none else .corruptCrc,
        { outSeq := (verifyPacket w).payload
          crcRes := (verifyPacket w).computed
          crcExp := (verifyPacket w).expected
          frameLen := BitVec.ofNat 32 l
          consumed := n })

/-- The causes a command can end with (60_exceptions.md R210). -/
def causesOf : Instr → List Cause
  | .crc => [.none]
  | .append => [.capacity, .none]
  | .verify => [.corruptShort, .corruptCrc, .none]
  | .fenc => [.capacity, .none]
  | .recv => [.incomplete, .frameTooLong, .corruptShort, .corruptCrc, .none]
  | .recvEos => [.truncPrefix, .frameTooLong, .truncBody, .corruptShort, .corruptCrc, .none]
  | .send => [.oversized, .none]
  | .sreset => []

/-- The two RECV commands with their EOS bit (30_encoding.md R102). -/
def recvForms : List (Instr × Bool) := [(.recv, false), (.recvEos, true)]

/-- The completion record's results: OUT and the four stored result registers (R41). -/
def State.results (s : State) : Results :=
  { outSeq := s.outSeq, crcRes := s.crcRes, crcExp := s.crcExp, frameLen := s.frameLen, consumed := s.consumed }

/-- The agent whose step comes next (20_memory.md R77, 70_reset_and_hazards.md R253). -/
def State.mover (s : State) : Agent :=
  match s.env.schedule with
  | a :: _ => a
  | [] => if s.busy then .engine else .host

/-- The access that the next step makes, if it is the host's. -/
def State.nextAccess (s : State) : Option Access :=
  match s.mover, s.env.program with
  | .host, l :: _ => some (lineAccess l.op)
  | _, _ => none

/-- The next step is a 4-byte host write of `v` to the register at offset `o`. -/
abbrev State.writesReg (s : State) (o : Nat) (v : Word) : Prop :=
  s.nextAccess = some (.write (s.params.base + o) .w4 v)

/-- The next step abandons whatever runs: the reset source's move or a write of the SRESET word (70_reset_and_hazards.md R240). -/
abbrev State.resetsNext (s : State) : Prop := s.mover = .resetSource ∨ s.writesReg 0x004 0x0000000F#32

/-- The state in which the next step's agent moves: the schedule has named it and is shorter by one. -/
def State.popped (s : State) : State := { s with env := { s.env with schedule := s.env.schedule.tail } }

/-! The checks of 20_memory.md R70, from the words of R61, R63, R69, R70, R32 and R34. -/

/-- Check 1: the offset is in a region that is not reserved (R61). -/
abbrev mappedOffset (bufSize o : Nat) : Prop :=
  o < 0x30 ∨ (0x10000 ≤ o ∧ o < 0x10000 + bufSize) ∨ (0x20000 ≤ o ∧ o < 0x20000 + bufSize)

/-- Check 2: 4 bytes in the register bank, 1 or 4 in a window, the offset a multiple of the width (R61, R63, R71). -/
abbrev widthAllowed (o : Nat) (w : Width) : Prop :=
  (w = .w4 ∧ o % 4 = 0) ∨ (w = .w1 ∧ 0x10000 ≤ o)

/-- Check 3: the registers that take a write, and the IN window (R21, R31, R70). -/
abbrev writeAllowed (o : Nat) : Prop :=
  o = 0x004 ∨ o = 0x008 ∨ o = 0x00C ∨ o = 0x014 ∨ o = 0x028 ∨ (0x10000 ≤ o ∧ o < 0x20000)

/-- Check 4 fails for these targets while BUSY = 1 (R69). -/
abbrev guardedWrite (o : Nat) (v : Word) : Prop :=
  (0x10000 ≤ o ∧ o < 0x20000) ∨ o = 0x00C ∨ o = 0x014 ∨ (o = 0x004 ∧ v ≠ 0x0000000F#32)

/-- Check 5: the values IN_LEN and MAX_PKT take (R32, R34). -/
abbrev valueInRange (bufSize o : Nat) (v : Word) : Prop :=
  (o = 0x00C → v.toNat ≤ bufSize) ∧ (o = 0x014 → v.toNat ≤ bufSize - 8)

/-- The next step is a host write that 20_memory.md R69 refuses: BUSY = 1, and the write passes checks 1 and 2 of R70 at a target
of R69's list. -/
abbrev State.refusedNext (s : State) : Prop :=
  s.busy = true ∧ ∃ o w v, s.nextAccess = some (.write (s.params.base + o) w v) ∧ mappedOffset s.params.bufSize o ∧
    widthAllowed o w ∧ guardedWrite o v

/-- A safe run: it has met no fault (10_state.md R43, R214). -/
def State.safe (s : State) : Prop := s.faulted = none

/-- A run is quiescent here (70_reset_and_hazards.md R254): BUSY = 0 and the host has no further step, whatever turns the
schedule still holds. -/
abbrev State.quiescent (s : State) : Prop := s.busy = false ∧ s.env.program = []

/-- A valid end of a run (R254): quiescent and without a fault mark. -/
abbrev State.validEnd (s : State) : Prop := s.quiescent ∧ s.faulted = none

/-- `w` with its bit `k` flipped: bit `k mod 8` of byte `k div 8` (95_test_vectors.md V36). -/
def flipBit (w : Bytes) (k : Nat) : Bytes := w.modify (k / 8) (fun b => b ^^^ (1#8 <<< (k % 8)))

/-- `a xor b`, bytewise (40_crc.md R126). -/
def xorBytes (a b : Bytes) : Bytes := List.zipWith (fun x y => x ^^^ y) a b

end Sys2Proof.Machine
end

