-- ==== Sys2Proof/Certificates/Slice0/Obligations.lean ====
section
/-!
DEFINITION. The statements about the model, each from the numbered rules of spec/ that its docstring names.
-/

open Sys2Proof Sys2Proof.Machine

/-! ## Encodings (30_encoding.md) -/

/-- R103, R104: a word decodes to a command exactly when it is that command's word, so no bit of an encoding is dropped. -/
def Obligations.DecodeAndEncodeAgree : Prop :=
  ∀ (c : Word) (i : Instr), decode c = .ok i ↔ c = encode i

/-- R103: exactly eight command words are legal, each naming its command; the legality of R104 and the decoder pick out the
same eight. -/
def Obligations.LegalWordsAreTheEight : Prop :=
  ∀ c : Word,
    (legalWord c = true ↔
      c ∈ [0x00000001#32, 0x00000002#32, 0x00000003#32, 0x00000004#32, 0x00000005#32, 0x00000105#32, 0x00000006#32,
        0x0000000F#32]) ∧
    ((∃ i, decode c = .ok i) ↔ legalWord c = true) ∧
    ∀ w i, (w, i) ∈ [(0x00000001#32, Instr.crc), (0x00000002#32, .append), (0x00000003#32, .verify), (0x00000004#32, .fenc),
        (0x00000005#32, .recv), (0x00000105#32, .recvEos), (0x00000006#32, .send), (0x0000000F#32, .sreset)] →
      (decode c = .ok i ↔ c = w)

/-- The words of R103 by hand, and some of the illegal words of 95_test_vectors.md V71, each rejected by name. -/
def Obligations.SampleCommandWordsDecode : Prop :=
  decode 0x00000001#32 = .ok .crc ∧ decode 0x00000003#32 = .ok .verify ∧ decode 0x00000105#32 = .ok .recvEos ∧
  decode 0x0000000F#32 = .ok .sreset ∧ decode 0x00000000#32 = .error .reservedOp ∧
  decode 0x00000101#32 = .error .eosWithoutRecv ∧ decode 0x0000001F#32 = .error .reservedBits ∧
  decode 0x80000001#32 = .error .reservedBits

/-! ## The functions (40_crc.md, 41_packet.md, 42_frame.md) -/

/-- R122: the table form gives the same value for every input; the listed entries of the table. -/
def Obligations.CrcTableFormAgrees : Prop :=
  (∀ s : Bytes, crc32ByTable s = crc32 s) ∧
  crcTable 0#8 = 0x00000000#32 ∧ crcTable 1#8 = 0x77073096#32 ∧ crcTable 2#8 = 0xEE0E612C#32 ∧
  crcTable 128#8 = 0xEDB88320#32 ∧ crcTable 255#8 = 0x2D02EF8D#32

/-- R126: the CRC of a difference; a single set bit gives a CRC other than 0; changing one bit of a payload changes its CRC. -/
def Obligations.CrcOfDifference : Prop :=
  (∀ a b : Bytes, a.length = b.length → crc32 a ^^^ crc32 b = crc0 (xorBytes a b)) ∧
  (∀ n k : Nat, k < 8 * n → crc0 (flipBit (List.replicate n 0#8) k) ≠ 0#32) ∧
  (∀ (p : Bytes) (k : Nat), k < 8 * p.length → crc32 (flipBit p k) ≠ crc32 p)

/-- R146: a Wire Unit with one bit flipped is never taken for a good one; a payload bit changes `computed` alone, a trailer
bit `expected` alone. -/
def Obligations.SingleBitErrorsAreDetected : Prop :=
  ∀ (p : Bytes) (k : Nat), k < 8 * (appendCRC p).length →
    (verifyPacket (flipBit (appendCRC p) k)).ok = false ∧
    (k < 8 * p.length →
      (verifyPacket (flipBit (appendCRC p) k)).computed ≠ crc32 p ∧
      (verifyPacket (flipBit (appendCRC p) k)).expected = crc32 p) ∧
    (8 * p.length ≤ k →
      (verifyPacket (flipBit (appendCRC p) k)).computed = crc32 p ∧
      (verifyPacket (flipBit (appendCRC p) k)).expected ≠ crc32 p)

/-- R145: the round trip of the functions, and of the commands APPEND and VERIFY when OUT is copied into IN between them. -/
def Obligations.AppendThenVerifyRoundTrips : Prop :=
  (∀ p : Bytes, verifyPacket (appendCRC p) =
    { payload := p, ok := true, short := false, expected := crc32 p, computed := crc32 p }) ∧
  (∀ (s t u : State) (p : Bytes), s.inputIs p → exec .append s = .next t → t.cause = .none →
    u.inLen = t.outSeq.length → u.inHolds 0 t.outSeq →
    ∃ v, exec .verify u = .next v ∧ v.cause = .none ∧ v.outSeq = p)

/-- R166: decoding an encoded Wire Unit gives it back, whatever follows it. The bound `2^32` is the domain of frameEncode (R160). -/
def Obligations.FrameDecodeInvertsEncode : Prop :=
  ∀ (w t : Bytes) (eos : Bool) (maxPkt : Nat), w.length < 2 ^ 32 → w.length ≤ maxPkt + 4 →
    frameDecode (frameEncode w ++ t) eos maxPkt = .frame w.length w (4 + w.length)

/-! ## The commands -/

/-- R125: CRC. -/
def Obligations.CrcCommandResult : Prop :=
  decode 0x00000001#32 = .ok .crc ∧
  ∀ s : State,
    (∀ p, s.inputIs p → exec .crc s = .next (complete .none { crcRes := crc32 p } s)) ∧
    (s.inLacks 0 s.inLen → exec .crc s = .fault .unwrittenInput)

/-- R143: APPEND. -/
def Obligations.AppendCommandResult : Prop :=
  decode 0x00000002#32 = .ok .append ∧
  ∀ s : State,
    (s.params.bufSize < s.inLen + 4 → exec .append s = .next (complete .capacity {} s)) ∧
    (s.inLen + 4 ≤ s.params.bufSize →
      (∀ p, s.inputIs p →
        exec .append s = .next (complete .none { outSeq := p ++ be32 (crc32 p), crcRes := crc32 p } s)) ∧
      (s.inLacks 0 s.inLen → exec .append s = .fault .unwrittenInput))

/-- R144: VERIFY, the Wire Unit written as its payload `p` and its four-byte trailer `t`. -/
def Obligations.VerifyCommandResult : Prop :=
  decode 0x00000003#32 = .ok .verify ∧
  ∀ s : State,
    (s.inLen < 4 → exec .verify s = .next (complete .corruptShort {} s)) ∧
    (4 ≤ s.inLen →
      (∀ p t : Bytes, t.length = 4 → s.inputIs (p ++ t) →
        exec .verify s = .next (complete (if crc32 p = be32dec t then .none else .corruptCrc)
          { outSeq := p, crcRes := crc32 p, crcExp := be32dec t } s)) ∧
      (s.inLacks 0 s.inLen → exec .verify s = .fault .unwrittenInput))

/-- R162: FENC. -/
def Obligations.FencCommandResult : Prop :=
  decode 0x00000004#32 = .ok .fenc ∧
  ∀ s : State,
    (s.params.bufSize < s.inLen + 4 → exec .fenc s = .next (complete .capacity {} s)) ∧
    (s.inLen + 4 ≤ s.params.bufSize →
      (∀ w, s.inputIs w →
        exec .fenc s = .next (complete .none
          { outSeq := be32 (BitVec.ofNat 32 w.length) ++ w, frameLen := BitVec.ofNat 32 w.length } s)) ∧
      (s.inLacks 0 s.inLen → exec .fenc s = .fault .unwrittenInput))

/-- R163: RECV and RECV.EOS, the rows of the rule's table top to bottom; `h` is the four-byte prefix. -/
def Obligations.RecvCommandResult : Prop :=
  decode 0x00000005#32 = .ok .recv ∧ decode 0x00000105#32 = .ok .recvEos ∧
  ∀ (i : Instr) (eos : Bool), (i, eos) ∈ recvForms → ∀ s : State,
    (s.inLen < 4 → exec i s = .next (complete (if eos then .truncPrefix else .incomplete) {} s)) ∧
    (4 ≤ s.inLen → s.inLacks 0 4 → exec i s = .fault .unwrittenInput) ∧
    (4 ≤ s.inLen → ∀ h : Bytes, h.length = 4 → s.inHolds 0 h →
      (s.maxPkt + 4 < (be32dec h).toNat → exec i s = .next (complete .frameTooLong { frameLen := be32dec h } s)) ∧
      ((be32dec h).toNat ≤ s.maxPkt + 4 → s.inLen - 4 < (be32dec h).toNat →
        exec i s = .next (complete (if eos then .truncBody else .incomplete) { frameLen := be32dec h } s)) ∧
      ((be32dec h).toNat ≤ s.maxPkt + 4 → (be32dec h).toNat ≤ s.inLen - 4 →
        (s.inLacks 4 (be32dec h).toNat → exec i s = .fault .unwrittenInput) ∧
        (∀ w : Bytes, w.length = (be32dec h).toNat → w.length < 4 → s.inHolds 4 w →
          exec i s = .next (complete .corruptShort { frameLen := be32dec h, consumed := 4 + w.length } s)) ∧
        (∀ p t : Bytes, t.length = 4 → (p ++ t).length = (be32dec h).toNat → s.inHolds 4 (p ++ t) →
          exec i s = .next (complete (if crc32 p = be32dec t then .none else .corruptCrc)
            { outSeq := p, crcRes := crc32 p, crcExp := be32dec t, frameLen := be32dec h,
              consumed := 4 + (p ++ t).length } s))))

/-- R164: SEND. -/
def Obligations.SendCommandResult : Prop :=
  decode 0x00000006#32 = .ok .send ∧
  ∀ s : State,
    (s.maxPkt < s.inLen → exec .send s = .next (complete .oversized {} s)) ∧
    (s.inLen ≤ s.maxPkt →
      (∀ p, s.inputIs p →
        exec .send s = .next (complete .none
          { outSeq := be32 (BitVec.ofNat 32 (p.length + 4)) ++ (p ++ be32 (crc32 p))
            crcRes := crc32 p
            frameLen := BitVec.ofNat 32 (p.length + 4) } s)) ∧
      (s.inLacks 0 s.inLen → exec .send s = .fault .unwrittenInput))

/-- R195: SRESET, as the command and as the CMD write that runs it, BUSY or not; every field of R49 by name. -/
def Obligations.SresetCommandResult : Prop :=
  decode 0x0000000F#32 = .ok .sreset ∧
  ∀ s : State,
    exec .sreset s = .next
      { busy := false, done := false, ok := false, accerr := false, cause := .none, inLen := 0, maxPkt := 8192, outSeq := [],
        crcRes := 0#32, crcExp := 0#32, frameLen := 0#32, consumed := 0, doneIE := false, accerrIE := false, inBuf := [],
        pend := none, faulted := s.faulted, params := s.params, env := s.env } ∧
    ∃ t, exec .sreset s = .next t ∧ statusWord t = 0#32 ∧ irq t = false ∧ (∀ j, Memory.read t.inBuf j = none) ∧
      hostWrite 0x004 .w4 0x0000000F#32 s = .next { t with env := { s.env with resp := some .okayWrite } }

/-- R193: what `complete` writes, field by field; and that every command but SRESET that ends has ended in one completion: DONE,
BUSY, PEND, OK and CAUSE together, and all else but OUT and the result registers as it was. -/
def Obligations.EveryCommandEndsInOneCompletion : Prop :=
  (∀ (cause : Cause) (r : Results) (s : State), complete cause r s =
    { s with
      busy := false
      done := true
      ok := decide (cause = .none)
      cause := cause
      outSeq := r.outSeq
      crcRes := r.crcRes
      crcExp := r.crcExp
      frameLen := r.frameLen
      consumed := r.consumed
      pend := none }) ∧
  ∀ (i : Instr) (s t : State), i ≠ .sreset → exec i s = .next t →
    t = { s with
          busy := false
          done := true
          ok := decide (t.cause = .none)
          cause := t.cause
          outSeq := t.outSeq
          crcRes := t.crcRes
          crcExp := t.crcExp
          frameLen := t.frameLen
          consumed := t.consumed
          pend := none } ∧
    readReg .outLen t = { value := BitVec.ofNat 32 t.outSeq.length, unspec := 0#32 }

/-- The frame of the seven commands that the engine runs (R42, R193): every byte of IN reads as before, written or not, and
IN_LEN, MAX_PKT, ACCERR, IRQ_EN and the fault mark are unchanged, as are the parameters and the outside world. -/
def Obligations.EngineCommandsFrame : Prop :=
  ∀ (i : Instr) (s t : State), i ∈ [.crc, .append, .verify, .fenc, .recv, .recvEos, .send] → exec i s = .next t →
    (∀ j, Memory.read t.inBuf j = Memory.read s.inBuf j) ∧
    t.inLen = s.inLen ∧ t.maxPkt = s.maxPkt ∧ t.accerr = s.accerr ∧ t.doneIE = s.doneIE ∧ t.accerrIE = s.accerrIE ∧
    t.faulted = s.faulted ∧ t.params = s.params ∧ t.env = s.env

/-- R41, R35 to R38: a result register that the command's row of R105 does not list is 0 afterwards, and CRC writes no OUT. -/
def Obligations.UnlistedResultsAreZero : Prop :=
  ∀ (i : Instr) (s t : State), exec i s = .next t →
    (i = .crc → t.outSeq = []) ∧
    (i = .fenc → t.crcRes = 0#32) ∧
    (i ≠ .verify → i ≠ .recv → i ≠ .recvEos → t.crcExp = 0#32) ∧
    (i = .crc ∨ i = .append ∨ i = .verify → t.frameLen = 0#32) ∧
    (i ≠ .recv → i ≠ .recvEos → t.consumed = 0)

/-- R210: a command ends only with a cause that the table gives it. -/
def Obligations.CausesAreThoseOfTheTable : Prop :=
  ∀ (i : Instr) (s t : State), i ≠ .sreset → exec i s = .next t → t.cause ∈ causesOf i

/-- R105: what a command gives depends on IN_LEN, `IN[0 : IN_LEN]` and MAX_PKT alone (and on the parameter BUF_SIZE). -/
def Obligations.CommandsReadOnlyTheirOperands : Prop :=
  ∀ (i : Instr) (s u t : State), i ≠ .sreset → u.inLen = s.inLen → u.maxPkt = s.maxPkt →
    u.params.bufSize = s.params.bufSize → (∀ j, j < s.inLen → Memory.read u.inBuf j = Memory.read s.inBuf j) →
    exec i s = .next t → ∃ v, exec i u = .next v ∧ v.results = t.results ∧ v.cause = t.cause ∧ v.ok = t.ok

/-- R163: RECV is frameDecode of the received bytes followed by verifyPacket on a Frame outcome. -/
def Obligations.RecvIsFrameDecodeThenVerify : Prop :=
  ∀ (i : Instr) (eos : Bool) (s : State) (p : Bytes), (i, eos) ∈ recvForms → s.inputIs p →
    exec i s = .next (complete (recvRecord (frameDecode p eos s.maxPkt)).1 (recvRecord (frameDecode p eos s.maxPkt)).2 s)

/-- R167: an INCOMPLETE RECV writes none of its operands, and a RECV over the bytes with more appended gives what one RECV
over all of them gives, with the same length prefix. -/
def Obligations.ShortReadsResume : Prop :=
  ∀ s t : State, exec .recv s = .next t → t.cause = .incomplete →
    t.inBuf = s.inBuf ∧ t.inLen = s.inLen ∧ t.maxPkt = s.maxPkt ∧ t.consumed = 0 ∧
    ∀ (p : Bytes) (i : Instr) (eos : Bool) (u : State) (more : Bytes), s.inputIs p → (i, eos) ∈ recvForms →
      u.maxPkt = s.maxPkt → u.inputIs (p ++ more) →
      ∃ v, exec i u = .next v ∧
        v = complete (recvRecord (frameDecode (p ++ more) eos s.maxPkt)).1
              (recvRecord (frameDecode (p ++ more) eos s.maxPkt)).2 u ∧
        (4 ≤ p.length → v.frameLen = t.frameLen)

/-- R168: what SEND has framed, RECV gives back, with either EOS. -/
def Obligations.SendThenRecvRoundTrips : Prop :=
  ∀ (s t u : State) (p : Bytes), s.Inv → s.inputIs p → exec .send s = .next t → t.cause = .none →
    u.maxPkt = s.maxPkt → u.inLen = t.outSeq.length → u.inHolds 0 t.outSeq →
    ∀ (i : Instr) (eos : Bool), (i, eos) ∈ recvForms →
      ∃ v, exec i u = .next v ∧ v.cause = .none ∧ v.outSeq = p ∧
        v.frameLen = BitVec.ofNat 32 (p.length + 4) ∧ v.consumed = p.length + 8

/-- R169: the prefix in an OUT that FENC or SEND wrote counts the bytes that follow it. -/
def Obligations.PrefixCountsTheWireUnit : Prop :=
  ∀ (i : Instr) (s t : State), i ∈ [.fenc, .send] → s.Inv → exec i s = .next t → t.cause = .none →
    4 ≤ t.outSeq.length ∧ (be32dec (t.outSeq.take 4)).toNat = t.outSeq.length - 4

/-- R248: a RECV over a full buffer never ends with INCOMPLETE. -/
def Obligations.FullBufferIsNeverIncomplete : Prop :=
  ∀ s t : State, s.Inv → s.inLen = s.params.bufSize → exec .recv s = .next t → t.cause ≠ .incomplete

/-! ## The bus (20_memory.md) -/

/-- R70: the five checks in their order; only the fourth changes state, and a write that passes all of them gets OKAY. -/
def Obligations.AccessChecksInOrder : Prop :=
  ∀ (s : State) (o : Nat) (w : Width) (v : Word), s.params.Admitted →
    (¬ (mappedOffset s.params.bufSize o ∧ widthAllowed o w) →
      hostRead o w s = { s with env := { s.env with resp := some .busError } }) ∧
    (mappedOffset s.params.bufSize o ∧ widthAllowed o w → ∃ d, (hostRead o w s).env.resp = some (.okayRead d)) ∧
    (¬ (mappedOffset s.params.bufSize o ∧ widthAllowed o w ∧ writeAllowed o) →
      hostWrite o w v s = .next { s with env := { s.env with resp := some .busError } }) ∧
    (mappedOffset s.params.bufSize o ∧ widthAllowed o w ∧ writeAllowed o →
      (s.busy = true ∧ guardedWrite o v →
        hostWrite o w v s = .next { s with accerr := true, env := { s.env with resp := some .busError } }) ∧
      (¬ (s.busy = true ∧ guardedWrite o v) → ¬ valueInRange s.params.bufSize o v →
        hostWrite o w v s = .next { s with env := { s.env with resp := some .busError } }) ∧
      (¬ (s.busy = true ∧ guardedWrite o v) → valueInRange s.params.bufSize o v →
        ∃ t, hostWrite o w v s = .next t ∧ t.env.resp = some .okayWrite))

/-- R66: an access at a reserved offset raises BusError and changes nothing, whatever its width or direction. -/
def Obligations.ReservedOffsetsRaiseBusError : Prop :=
  ∀ (s : State) (o : Nat) (w : Width) (v : Word),
    (0x30 ≤ o ∧ o < 0x10000) ∨ (0x10000 + s.params.bufSize ≤ o ∧ o < 0x20000) ∨
      (0x20000 + s.params.bufSize ≤ o ∧ o < 0x30000) ∨ (0x30000 ≤ o ∧ o < 0x40000) →
    hostRead o w s = { s with env := { s.env with resp := some .busError } } ∧
    hostWrite o w v s = .next { s with env := { s.env with resp := some .busError } }

/-- R69: the writes that are refused while BUSY = 1, each setting ACCERR and storing nothing, and the two that never are. -/
def Obligations.OperandWritesAreRefusedWhileBusy : Prop :=
  ∀ (s : State) (v : Word), s.params.Admitted → s.busy = true →
    (∀ o w, ((0x10000 ≤ o ∧ o < 0x10000 + s.params.bufSize ∧ (w = .w1 ∨ (w = .w4 ∧ o % 4 = 0))) ∨
        (w = .w4 ∧ (o = 0x00C ∨ o = 0x014 ∨ (o = 0x004 ∧ v ≠ 0x0000000F#32)))) →
      hostWrite o w v s = .next { s with accerr := true, env := { s.env with resp := some .busError } }) ∧
    (∀ o, o = 0x008 ∨ o = 0x028 → ∃ t, hostWrite o .w4 v s = .next t ∧ t.env.resp = some .okayWrite)

/-- R64: the IN window, byte lanes included; a byte that is unwritten reads as a free value, whose bits nothing constrains; a
4-byte access off a multiple of 4 raises BusError. -/
def Obligations.InWindowAccess : Prop :=
  ∀ (s : State) (i : Nat), s.params.Admitted → i < s.params.bufSize →
    (s.busy = false → ∀ v : Word,
      (∃ m, hostWrite (0x10000 + i) .w1 v s =
          .next { s with inBuf := m, env := { s.env with resp := some .okayWrite } } ∧
        Memory.read m i = some (v.extractLsb' 0 8) ∧ ∀ j, j ≠ i → Memory.read m j = Memory.read s.inBuf j) ∧
      (i % 4 = 0 → ∃ m, hostWrite (0x10000 + i) .w4 v s =
          .next { s with inBuf := m, env := { s.env with resp := some .okayWrite } } ∧
        (∀ k, k < 4 → Memory.read m (i + k) = some (v.extractLsb' (8 * k) 8)) ∧
        ∀ j, j < i ∨ i + 4 ≤ j → Memory.read m j = Memory.read s.inBuf j)) ∧
    (hostRead (0x10000 + i) .w1 s).env.resp = some (.okayRead
      (((Memory.read s.inBuf i).getD ((Config.freeValue s.env.draws).extractLsb' 0 8)).setWidth 32)) ∧
    (i % 4 = 0 → ∃ d : Word, (hostRead (0x10000 + i) .w4 s).env.resp = some (.okayRead d) ∧
      ∀ k, k < 4 → d.extractLsb' (8 * k) 8 =
        (Memory.read s.inBuf (i + k)).getD ((Config.freeValue s.env.draws).extractLsb' (8 * k) 8)) ∧
    (i % 4 ≠ 0 → ∀ v : Word,
      hostRead (0x10000 + i) .w4 s = { s with env := { s.env with resp := some .busError } } ∧
      hostWrite (0x10000 + i) .w4 v s = .next { s with env := { s.env with resp := some .busError } })

/-- R65, R45: the OUT window: exact below OUT_LEN while BUSY = 0, a free value otherwise; a write raises BusError. -/
def Obligations.OutWindowAccess : Prop :=
  ∀ (s : State) (i : Nat), s.params.Admitted → i < s.params.bufSize →
    (hostRead (0x20000 + i) .w1 s).env.resp = some (.okayRead
      ((if s.busy = false ∧ i < s.outSeq.length then s.outSeq[i]?.getD 0#8
        else (Config.freeValue s.env.draws).extractLsb' 0 8).setWidth 32)) ∧
    (i % 4 = 0 → ∃ d : Word, (hostRead (0x20000 + i) .w4 s).env.resp = some (.okayRead d) ∧
      ∀ k, k < 4 → d.extractLsb' (8 * k) 8 =
        if s.busy = false ∧ i + k < s.outSeq.length then s.outSeq[i + k]?.getD 0#8
        else (Config.freeValue s.env.draws).extractLsb' (8 * k) 8) ∧
    ∀ (w : Width) (v : Word),
      hostWrite (0x20000 + i) w v s = .next { s with env := { s.env with resp := some .busError } }

/-- R73: reads have no side effects (the response and the count of free values drawn are the outside world's), and a register
reads the same twice, whatever is read in between, except where the value is unspecified: a read that draws no free value is exact,
and STATUS keeps its exact bits always. -/
def Obligations.ReadsHaveNoSideEffects : Prop :=
  ∀ (o p : Nat) (w x : Width) (s : State),
    (∃ r n, hostRead o w s = { s with env := { s.env with resp := some r, draws := n } }) ∧
    ((hostRead o w s).env.draws = s.env.draws →
      (hostRead o w (hostRead p x s)).env.resp = (hostRead o w s).env.resp) ∧
    ∀ d e, (hostRead 0x008 .w4 s).env.resp = some (.okayRead d) →
      (hostRead 0x008 .w4 (hostRead p x s)).env.resp = some (.okayRead e) → e &&& 0xFFFFF0EB#32 = d &&& 0xFFFFF0EB#32

/-- R21 to R23, R32 to R40, R41: every register but STATUS as a host reads it, while BUSY = 0 and while BUSY = 1; the five
result registers then read free values. -/
def Obligations.RegisterReads : Prop :=
  ∀ s : State,
    (∀ o x, (o, x) ∈ [(0x000, 0x4C554E31#32), (0x004, 0#32), (0x00C, BitVec.ofNat 32 s.inLen),
        (0x014, BitVec.ofNat 32 s.maxPkt), (0x028, 0#30 ++ BitVec.ofBool s.accerrIE ++ BitVec.ofBool s.doneIE),
        (0x02C, BitVec.ofNat 32 s.params.bufSize)] →
      hostRead o .w4 s = { s with env := { s.env with resp := some (.okayRead x) } }) ∧
    (∀ o x, (o, x) ∈ [(0x010, BitVec.ofNat 32 s.outSeq.length), (0x018, s.crcRes), (0x01C, s.crcExp), (0x020, s.frameLen),
        (0x024, BitVec.ofNat 32 s.consumed)] →
      (s.busy = false → hostRead o .w4 s = { s with env := { s.env with resp := some (.okayRead x) } }) ∧
      (s.busy = true → hostRead o .w4 s =
        { s with env := { s.env with resp := some (.okayRead (Config.freeValue s.env.draws)), draws := s.env.draws + 1 } }))

/-- R24, R29, R30, R210: STATUS as a host reads it: BUSY, DONE and ACCERR exactly at all times, the reserved bits 0, and OK,
FATAL and CAUSE exactly while BUSY = 0 and free while BUSY = 1. -/
def Obligations.StatusReads : Prop :=
  ∀ s : State, ∃ d : Word, (hostRead 0x008 .w4 s).env.resp = some (.okayRead d) ∧
    d.getLsbD 0 = s.busy ∧ d.getLsbD 1 = s.done ∧ d.getLsbD 3 = s.accerr ∧
    d.extractLsb' 5 3 = 0#3 ∧ d.extractLsb' 12 20 = 0#20 ∧
    (s.busy = false → d.getLsbD 2 = s.ok ∧
      (d.getLsbD 4 = true ↔ s.cause ∈ [.truncPrefix, .truncBody, .frameTooLong]) ∧
      ∀ k n, (k, n) ∈ [(Cause.none, 0#4), (.corruptCrc, 1#4), (.corruptShort, 2#4), (.oversized, 3#4), (.truncPrefix, 4#4),
          (.truncBody, 5#4), (.frameTooLong, 6#4), (.incomplete, 7#4), (.capacity, 8#4), (.illegalCmd, 9#4)] →
        s.cause = k → d.extractLsb' 8 4 = n) ∧
    (s.busy = true → d.getLsbD 2 = (Config.freeValue s.env.draws).getLsbD 2 ∧
      d.getLsbD 4 = (Config.freeValue s.env.draws).getLsbD 4 ∧
      d.extractLsb' 8 4 = (Config.freeValue s.env.draws).extractLsb' 8 4)

/-- R32, R34: writes to IN_LEN and MAX_PKT while BUSY = 0: the value is stored up to the bound and turned away above it. -/
def Obligations.OperandRegisterWrites : Prop :=
  ∀ (s : State) (v : Word), s.params.Admitted → s.busy = false →
    (hostWrite 0x00C .w4 v s =
      if v.toNat ≤ s.params.bufSize then .next { s with inLen := v.toNat, env := { s.env with resp := some .okayWrite } }
      else .next { s with env := { s.env with resp := some .busError } }) ∧
    (hostWrite 0x014 .w4 v s =
      if v.toNat ≤ s.params.bufSize - 8 then
        .next { s with maxPkt := v.toNat, env := { s.env with resp := some .okayWrite } }
      else .next { s with env := { s.env with resp := some .busError } })

/-- R190, R191, R194: a 4-byte write to CMD: SRESET in every state, refused while BUSY = 1, an illegal word rejected at once,
any other word accepted. -/
def Obligations.CommandWordWrite : Prop :=
  ∀ (s : State) (c : Word), hostWrite 0x004 .w4 c s =
    if c = 0x0000000F#32 then
      .next { State.reset with faulted := s.faulted, params := s.params, env := { s.env with resp := some .okayWrite } }
    else if s.busy = true then
      .next { s with accerr := true, env := { s.env with resp := some .busError } }
    else if legalWord c = false then
      .next { s with cause := .illegalCmd, ok := false, done := true, env := { s.env with resp := some .okayWrite } }
    else
      .next { s with pend := some c, busy := true, done := false, env := { s.env with resp := some .okayWrite } }

/-- R197: a write to STATUS, BUSY or not, clears DONE and ACCERR where bits 1 and 3 are 1 and ignores every other bit, and takes
their sources off `irq`; a write of 0 has no effect. -/
def Obligations.StatusWriteClearsOnOne : Prop :=
  ∀ (s : State) (v : Word), ∃ t, hostWrite 0x008 .w4 v s = .next t ∧
    t = { s with
          done := if v.getLsbD 1 = true then false else s.done
          accerr := if v.getLsbD 3 = true then false else s.accerr
          env := { s.env with resp := some .okayWrite } } ∧
    irq t = ((s.done && !v.getLsbD 1 && s.doneIE) || (s.accerr && !v.getLsbD 3 && s.accerrIE))

/-- R198, R48: a write to IRQ_EN, BUSY or not, sets its two fields, and `irq` follows at once. -/
def Obligations.IrqEnableWrite : Prop :=
  ∀ (s : State) (v : Word), ∃ t, hostWrite 0x028 .w4 v s = .next t ∧
    t = { s with doneIE := v.getLsbD 0, accerrIE := v.getLsbD 1, env := { s.env with resp := some .okayWrite } } ∧
    irq t = ((s.done && v.getLsbD 0) || (s.accerr && v.getLsbD 1))

/-- R60, R75: an address inside the aperture is its offset from BASE, for every BASE; an address outside it does not reach the
block. That no response then comes is the model's choice (log 6); what the host's line does then is in HostStepRunsOneLine. -/
def Obligations.ApertureOffsets : Prop :=
  ∀ (s : State) (addr : Nat) (w : Width) (v : Word),
    (∀ o, o < 0x40000 → addr = s.params.base + o →
      hostAccess (.read addr w) s = .next (hostRead o w s) ∧ hostAccess (.write addr w v) s = hostWrite o w v s) ∧
    (addr < s.params.base ∨ s.params.base + 0x40000 ≤ addr →
      hostAccess (.read addr w) s = .next { s with env := { s.env with resp := none } } ∧
      hostAccess (.write addr w v) s = .next { s with env := { s.env with resp := none } })

/-! ## Steps -/

/-- R192: the engine step is enabled exactly when BUSY = 1 and there is no fault mark, and runs the command that PEND decodes
to; a fault of the command sets the mark, and a marked state has no further step. `s.popped` is `s` with the engine's turn
taken off the schedule. Two clauses say more than the rule: that a turn of the engine while BUSY = 0 changes nothing else is the
model's choice (log 10), and that the marked state keeps every other field is DEDUCED (log 8). -/
def Obligations.EngineStepRunsTheDecodedCommand : Prop :=
  ∀ s : State, s.mover = .engine →
    (∀ f, s.faulted = some f → step s = .fault f) ∧
    (s.faulted = none → s.busy = false → step s = .next s.popped) ∧
    (∀ c i, s.faulted = none → s.busy = true → s.pend = some c → decode c = .ok i → i ≠ .sreset →
      (∀ t, exec i s.popped = .next t → step s = .next t) ∧
      (∀ f, exec i s.popped = .fault f → step s = .next { s.popped with faulted := some f }))

/-- R107, R192: a marked state has no host step; otherwise the host's step makes the access of its next program line and goes on by
the response: an ERROR ends the program unless the line is marked, a POLL repeats until its condition holds. Two clauses are the
model's choice: a turn of a host whose program is over changes nothing else (log 10), and a line of either kind that gets no
response, its address being outside the aperture, counts as done (log 6). -/
def Obligations.HostStepRunsOneLine : Prop :=
  ∀ s : State, s.mover = .host →
    (∀ f, s.faulted = some f → step s = .fault f) ∧
    (s.faulted = none → s.env.program = [] → step s = .next s.popped) ∧
    (∀ l rest t, s.faulted = none → s.env.program = l :: rest → hostAccess (lineAccess l.op) s.popped = .next t →
      ∃ p, step s = .next { t with env := { t.env with program := p } } ∧
        (t.env.resp = some .busError → p = if l.marked then rest else []) ∧
        (∀ d addr mask val, l.op = .poll addr mask val → t.env.resp = some (.okayRead d) →
          p = if d &&& mask = val then rest else l :: rest) ∧
        (∀ a r, l.op = .access a → t.env.resp = some r → r ≠ .busError → p = rest) ∧
        (t.env.resp = none → p = rest))

/-- The placement that stands for a host's CMD write (the model's own, log 5): the very next step runs the command of the word, by
the engine (R191, R192) or, for SRESET, by the CMD write that performs it (R190, R195). That a state marked by a fault keeps every
other field is DEDUCED (log 8). -/
def Obligations.PlacedCommandRunsNext : Prop :=
  (∀ (s : State) (i : Instr), i ≠ .sreset →
    ∀ s' : State, s' = { s with pend := some (encode i), busy := true, done := false, faulted := none } →
      (∀ t, exec i s' = .next t → step (s.withFetchWord 32 (encode i).toNat) = .next t) ∧
      (∀ f, exec i s' = .fault f → step (s.withFetchWord 32 (encode i).toNat) = .next { s' with faulted := some f })) ∧
  ∀ s : State, ∃ t, exec .sreset { s with faulted := none } = .next t ∧
    step (s.withFetchWord 32 (encode .sreset).toNat) = .next { t with env := { s.env with resp := some .okayWrite } }

/-- R240, R241: the reset source's step puts every field to its reset value and abandons whatever ran. -/
def Obligations.ResetStepLeavesTheResetState : Prop :=
  ∀ s : State, s.faulted = none → s.mover = .resetSource →
    ∃ t, step s = .next t ∧ t = { State.reset with params := s.params, env := s.popped.env } ∧
      statusWord t = 0#32 ∧ irq t = false ∧ t.maxPkt = 8192 ∧ t.inLen = 0 ∧ t.outSeq = [] ∧
      t.crcRes = 0#32 ∧ t.crcExp = 0#32 ∧ t.frameLen = 0#32 ∧ t.consumed = 0 ∧ t.doneIE = false ∧ t.accerrIE = false ∧
      t.pend = none ∧ (∀ j, Memory.read t.inBuf j = none)

/-! ## Invariants and whole-machine rules -/

/-- The reset state has the invariant (with the default parameters, a choice of the model: log 3, log 4). -/
def Obligations.ResetHasTheInvariant : Prop := State.reset.Inv

/-- R33, R46, R49: from every state with the invariant, a step gives one with it. -/
def Obligations.EveryStepKeepsTheInvariant : Prop :=
  ∀ s t : State, s.Inv → step s = .next t → t.Inv

/-- R192, R214: in a state with the invariant, a step is never refused; it stops exactly when the fault mark is set. -/
def Obligations.OnlyTheFaultMarkStops : Prop :=
  ∀ s : State, s.Inv →
    (∀ f, s.faulted = some f → step s = .fault f) ∧ (s.faulted = none → ∃ t, step s = .next t)

/-- R25: what changes BUSY: the acceptance of a command sets it, with its word in PEND; the engine step that completes, a reset
or SRESET clears it. -/
def Obligations.WhatChangesBusy : Prop :=
  ∀ s t : State, step s = .next t →
    (s.busy = false → t.busy = true → ∃ c, s.writesReg 0x004 c ∧ runnableWord c = true ∧ t.pend = some c) ∧
    (s.busy = true → t.busy = false → (s.mover = .engine ∧ t.done = true) ∨ s.resetsNext)

/-- R26: what changes DONE. -/
def Obligations.WhatChangesDone : Prop :=
  ∀ s t : State, step s = .next t →
    (s.done = false → t.done = true →
      (s.mover = .engine ∧ s.busy = true ∧ t.busy = false) ∨
        ∃ c, s.writesReg 0x004 c ∧ legalWord c = false ∧ s.busy = false ∧ t.cause = .illegalCmd) ∧
    (s.done = true → t.done = false →
      (∃ c, s.writesReg 0x004 c ∧ runnableWord c = true) ∨ (∃ v, s.writesReg 0x008 v ∧ v.getLsbD 1 = true) ∨ s.resetsNext)

/-- R28, R69: ACCERR is set only by a write refused while BUSY = 1 (`State.refusedNext`), and cleared only by a 1
written to bit 3 of STATUS, reset or SRESET. -/
def Obligations.WhatChangesAccErr : Prop :=
  ∀ s t : State, step s = .next t →
    (s.accerr = false → t.accerr = true → s.refusedNext ∧ t.env.resp = some .busError) ∧
    (s.accerr = true → t.accerr = false →
      (∃ v, s.writesReg 0x008 v ∧ v.getLsbD 3 = true) ∨ s.resetsNext)

/-- R44, R255: OUT and the result registers change only in the engine step that completes a command, a reset or SRESET. -/
def Obligations.WhatChangesResults : Prop :=
  ∀ s t : State, step s = .next t → t.results ≠ s.results →
    (s.mover = .engine ∧ s.busy = true ∧ t.busy = false ∧ t.done = true) ∨ s.resetsNext

/-- R69, R191: while a command runs, its operands IN, IN_LEN, MAX_PKT and its word PEND do not change. -/
def Obligations.OperandsAreFixedWhileBusy : Prop :=
  ∀ s t : State, step s = .next t → s.busy = true → t.busy = true →
    t.inBuf = s.inBuf ∧ t.inLen = s.inLen ∧ t.maxPkt = s.maxPkt ∧ t.pend = s.pend

/-- R222, R223: `irq` falls only when the host writes STATUS or IRQ_EN, a command is accepted, or on a reset; it rises only in a
completion, an illegal CMD write, a write refused while BUSY = 1 (`State.refusedNext`) or an IRQ_EN write. -/
def Obligations.WhatChangesIrq : Prop :=
  ∀ s t : State, step s = .next t →
    (irq s = true → irq t = false →
      (∃ v, s.writesReg 0x008 v) ∨ (∃ v, s.writesReg 0x028 v) ∨ (∃ c, s.writesReg 0x004 c ∧ runnableWord c = true) ∨
        s.resetsNext) ∧
    (irq s = false → irq t = true →
      (s.mover = .engine ∧ s.busy = true ∧ t.busy = false) ∨
        (s.busy = false ∧ ∃ c, s.writesReg 0x004 c ∧ legalWord c = false) ∨
        (s.refusedNext ∧ t.env.resp = some .busError) ∨ (∃ v, s.writesReg 0x028 v))

/-- R40, R75, R192, R243: no step changes the parameters, so ID and BUF_SIZE read the same for ever; and the fault mark is never
cleared: a marked state has no step, and no move of an agent, a reset among them, would take the mark away. -/
def Obligations.ParametersNeverChange : Prop :=
  (∀ s t : State, step s = .next t →
    t.params = s.params ∧ readReg .bufSize t = readReg .bufSize s ∧ readReg .id t = readReg .id s) ∧
  ∀ (s : State) (f : Fault), s.faulted = some f →
    step s = .fault f ∧ ∀ (a : Agent) (t : State), agentMove a s = .next t → t.faulted = some f

/-- R253: an accepted command ends. That it does so within one step more than the schedule has turns, with BUSY = 0 or the fault
mark set, is the model's choice (log 2): the schedule is finite, and when it is used up the engine moves first, which is one order
that the weak fairness of R253 allows. -/
def Obligations.AcceptedCommandsEnd : Prop :=
  ∀ s : State, s.Inv → s.faulted = none → s.busy = true →
    ∃ j t, j ≤ s.env.schedule.length + 1 ∧ Host.Core.run Sys2Proof.core j s = .next t ∧
      (t.busy = false ∨ t.faulted ≠ none)

/-- R254: a valid end is one: from a quiescent state without a fault mark the turns of the host and the engine change nothing of the
block (that such a turn is a step at all is the model's choice, log 10), and after a reset the state is a valid end again. -/
def Obligations.ValidEndsAreFinal : Prop :=
  ∀ s : State, s.validEnd →
    (s.mover ≠ .resetSource → step s = .next s.popped ∧ s.popped.validEnd) ∧
    (s.mover = .resetSource → ∃ t, step s = .next t ∧ t.validEnd ∧ t.env = s.popped.env)
end

