-- ==== Sys2Proof/Laws/Memory.lean ====
section
/-!
SUPPORT. The input buffer: a read after a write, the canonical form, and what a slice says about the single bytes.
-/

namespace Sys2Proof.Machine

/-- A byte just written reads back. -/
@[simp] theorem Memory.read_write_same (m : Memory) (i : Nat) (b : Byte) :
    Memory.read (Memory.write m i b) i = some b := by
  induction m with
  | nil => simp [Memory.write, Memory.read]
  | cons e m ih =>
    obtain ⟨k, c⟩ := e
    simp only [Memory.write]
    split
    · simp [Memory.read]
    · split
      · simp [Memory.read]
      · rename_i h
        simp [Memory.read, Ne.symm h, ih]

/-- A write leaves every other byte alone. -/
theorem Memory.read_write_ne (m : Memory) {i j : Nat} (b : Byte) (h : j ≠ i) :
    Memory.read (Memory.write m i b) j = Memory.read m j := by
  induction m with
  | nil => simp [Memory.write, Memory.read, Ne.symm h]
  | cons e m ih =>
    obtain ⟨k, c⟩ := e
    simp only [Memory.write]
    split
    · simp [Memory.read, Ne.symm h]
    · split
      · rename_i hik
        subst hik
        simp [Memory.read, Ne.symm h]
      · simp [Memory.read, ih]

/-- Every index of a memory whose first entry may be put before it lies above that entry. -/
theorem Memory.wf_cons_iff (k : Nat) (c : Byte) (m : Memory) :
    Memory.wf ((k, c) :: m) = true ↔ (∀ e ∈ m, k < e.1) ∧ Memory.wf m = true := by
  induction m generalizing k c with
  | nil => simp [Memory.wf]
  | cons e m ih =>
    obtain ⟨l, d⟩ := e
    simp only [Memory.wf, Bool.and_eq_true, decide_eq_true_eq, List.mem_cons, forall_eq_or_imp, ih l d]
    constructor
    · rintro ⟨h, hm, hw⟩
      exact ⟨⟨h, fun e he => Nat.lt_trans h (hm e he)⟩, hm, hw⟩
    · rintro ⟨⟨h, -⟩, hm, hw⟩
      exact ⟨h, hm, hw⟩

/-- The entries of a written memory are the new one and old ones. -/
theorem Memory.mem_write {m : Memory} {i : Nat} {b : Byte} {e : Host.Cell} (h : e ∈ Memory.write m i b) :
    e = (i, b) ∨ e ∈ m := by
  induction m with
  | nil => simpa [Memory.write] using h
  | cons d m ih =>
    obtain ⟨k, c⟩ := d
    simp only [Memory.write] at h
    split at h
    · simpa using h
    · split at h
      · simp only [List.mem_cons] at h ⊢
        tauto
      · simp only [List.mem_cons] at h ⊢
        rcases h with h | h
        · exact .inr (.inl h)
        · rcases ih h with h | h
          · exact .inl h
          · exact .inr (.inr h)

/-- A write keeps the canonical form. -/
theorem Memory.write_wf {m : Memory} (i : Nat) (b : Byte) (h : Memory.wf m = true) :
    Memory.wf (Memory.write m i b) = true := by
  induction m with
  | nil => simp [Memory.write, Memory.wf]
  | cons e m ih =>
    obtain ⟨k, c⟩ := e
    obtain ⟨hk, hm⟩ := (Memory.wf_cons_iff k c m).1 h
    simp only [Memory.write]
    split
    · rename_i hik
      refine (Memory.wf_cons_iff _ _ _).2 ⟨?_, h⟩
      intro e he
      rcases List.mem_cons.1 he with rfl | he
      · exact hik
      · exact Nat.lt_trans hik (hk e he)
    · split
      · rename_i hik
        subst hik
        exact (Memory.wf_cons_iff _ _ _).2 ⟨hk, hm⟩
      · refine (Memory.wf_cons_iff _ _ _).2 ⟨?_, ih hm⟩
        intro e he
        rcases Memory.mem_write he with rfl | he
        · simp only
          omega
        · exact hk e he

/-- The input buffer of the reset state is in canonical form. -/
theorem reset_inBuf_wf : Memory.wf State.reset.inBuf = true := rfl

/-- A word write keeps the canonical form. -/
theorem Memory.writeWord_wf {m : Memory} (i : Nat) (v : Word) (h : Memory.wf m = true) :
    Memory.wf (Memory.writeWord m i v) = true :=
  Memory.write_wf _ _ (Memory.write_wf _ _ (Memory.write_wf _ _ (Memory.write_wf _ _ h)))

/-- The indices of a memory after a word write. -/
theorem Memory.mem_writeWord {m : Memory} {i : Nat} {v : Word} {e : Host.Cell} (h : e ∈ Memory.writeWord m i v) :
    (i ≤ e.1 ∧ e.1 < i + 4) ∨ e ∈ m := by
  rcases Memory.mem_write h with rfl | h
  · exact .inl ⟨by simp, by simp⟩
  rcases Memory.mem_write h with rfl | h
  · exact .inl ⟨by simp, by simp⟩
  rcases Memory.mem_write h with rfl | h
  · exact .inl ⟨by simp, by simp⟩
  rcases Memory.mem_write h with rfl | h
  · exact .inl ⟨by simp, by simp⟩
  exact .inr h

/-- The four bytes of a word write, and every other byte left alone. -/
theorem Memory.read_writeWord (m : Memory) (i : Nat) (v : Word) (j : Nat) :
    Memory.read (Memory.writeWord m i v) j =
      if j = i then some (v.extractLsb' 0 8)
      else if j = i + 1 then some (v.extractLsb' 8 8)
      else if j = i + 2 then some (v.extractLsb' 16 8)
      else if j = i + 3 then some (v.extractLsb' 24 8)
      else Memory.read m j := by
  unfold Memory.writeWord
  by_cases h3 : j = i + 3
  · subst h3
    simp
  rw [Memory.read_write_ne _ _ h3]
  by_cases h2 : j = i + 2
  · subst h2
    simp
  rw [Memory.read_write_ne _ _ h2]
  by_cases h1 : j = i + 1
  · subst h1
    simp
  rw [Memory.read_write_ne _ _ h1]
  by_cases h0 : j = i
  · subst h0
    simp
  rw [Memory.read_write_ne _ _ h0]
  simp [h0, h1, h2, h3]

/-- A slice that is there: its length, and each of its bytes. -/
theorem Memory.slice_eq_some_iff (m : Memory) (a n : Nat) (p : Bytes) :
    Memory.slice m a n = some p ↔ p.length = n ∧ ∀ i, i < p.length → Memory.read m (a + i) = p[i]? := by
  induction n generalizing a p with
  | zero =>
    simp only [Memory.slice, Option.some.injEq, List.length_eq_zero_iff]
    constructor
    · rintro rfl
      simp
    · rintro ⟨rfl, -⟩
      rfl
  | succ n ih =>
    cases p with
    | nil =>
      simp only [Memory.slice]
      constructor
      · intro h
        split at h
        · cases h
        · split at h <;> simp at h
      · intro h
        simp at h
    | cons b p =>
      have key : (∀ i, i < (b :: p).length → Memory.read m (a + i) = (b :: p)[i]?) ↔
          Memory.read m a = some b ∧ ∀ i, i < p.length → Memory.read m (a + 1 + i) = p[i]? := by
        constructor
        · intro h
          refine ⟨by simpa using h 0 (by simp), fun i hi => ?_⟩
          have := h (i + 1) (by simpa using hi)
          rw [show a + (i + 1) = a + 1 + i by omega] at this
          simpa using this
        · rintro ⟨h0, h⟩ i hi
          cases i with
          | zero => simpa using h0
          | succ i =>
            rw [show a + (i + 1) = a + 1 + i by omega]
            simpa using h i (by simpa using hi)
      rw [key]
      simp only [Memory.slice, List.length_cons, Nat.add_right_cancel_iff]
      constructor
      · intro h
        split at h
        · cases h
        · rename_i c hc
          split at h
          · cases h
          · rename_i q hq
            simp only [Option.some.injEq, List.cons.injEq] at h
            obtain ⟨rfl, rfl⟩ := h
            obtain ⟨hl, hr⟩ := (ih _ _).1 hq
            exact ⟨hl, hc, hr⟩
      · rintro ⟨hl, hb, hr⟩
        rw [hb, (ih (a + 1) p).2 ⟨hl, hr⟩]

/-- A slice that is not there has an unwritten byte, and the other way round. -/
theorem Memory.slice_eq_none_iff (m : Memory) (a n : Nat) :
    Memory.slice m a n = none ↔ ∃ i, i < n ∧ Memory.read m (a + i) = none := by
  induction n generalizing a with
  | zero => simp [Memory.slice]
  | succ n ih =>
    have key : (∃ i, i < n + 1 ∧ Memory.read m (a + i) = none) ↔
        Memory.read m a = none ∨ ∃ i, i < n ∧ Memory.read m (a + 1 + i) = none := by
      constructor
      · rintro ⟨i, hi, h⟩
        cases i with
        | zero => exact .inl h
        | succ i =>
          refine .inr ⟨i, by omega, ?_⟩
          rwa [show a + 1 + i = a + (i + 1) by omega]
      · rintro (h | ⟨i, hi, h⟩)
        · exact ⟨0, by omega, h⟩
        · refine ⟨i + 1, by omega, ?_⟩
          rwa [show a + (i + 1) = a + 1 + i by omega]
    rw [key, ← ih (a + 1)]
    simp only [Memory.slice]
    cases Memory.read m a with
    | none => simp
    | some b => cases Memory.slice m (a + 1) n <;> simp

/-- A slice that is there has the length asked for. -/
theorem Memory.slice_length {m : Memory} {a n : Nat} {p : Bytes} (h : Memory.slice m a n = some p) : p.length = n :=
  ((Memory.slice_eq_some_iff m a n p).1 h).1

/-- The input operation: it runs its continuation on the bytes that stand in IN, or stops with UnwrittenInput. -/
theorem withInput_cases (s : State) (a n : Nat) (k : Bytes → Result) :
    (∃ p, Memory.slice s.inBuf a n = some p ∧ withInput s a n k = k p) ∨
      ((∃ i, i < n ∧ Memory.read s.inBuf (a + i) = none) ∧ withInput s a n k = .fault .unwrittenInput) := by
  unfold withInput
  cases h : Memory.slice s.inBuf a n with
  | some p => exact .inl ⟨p, rfl, rfl⟩
  | none => exact .inr ⟨(Memory.slice_eq_none_iff _ _ _).1 h, rfl⟩

/-- The input operation on bytes that are there. -/
theorem withInput_of_slice {s : State} {a n : Nat} {p : Bytes} (k : Bytes → Result)
    (h : Memory.slice s.inBuf a n = some p) : withInput s a n k = k p := by
  simp [withInput, h]

/-- The input operation on a missing byte. -/
theorem withInput_of_lacks {s : State} {a n : Nat} (k : Bytes → Result)
    (h : ∃ i, i < n ∧ Memory.read s.inBuf (a + i) = none) : withInput s a n k = .fault .unwrittenInput := by
  simp [withInput, (Memory.slice_eq_none_iff s.inBuf a n).2 h]

end Sys2Proof.Machine
end

