-- ==== Sys2Proof/Laws/State.lean ====
section
/-!
SUPPORT. Every named update of the state, field by field: what it writes and what it leaves.
-/

namespace Sys2Proof.Machine

variable (s : State)

/-! `complete`. -/

@[simp] theorem complete_busy (k : Cause) (r : Results) : (complete k r s).busy = false := rfl
@[simp] theorem complete_done (k : Cause) (r : Results) : (complete k r s).done = true := rfl
@[simp] theorem complete_ok (k : Cause) (r : Results) : (complete k r s).ok = decide (k = .none) := rfl
@[simp] theorem complete_accerr (k : Cause) (r : Results) : (complete k r s).accerr = s.accerr := rfl
@[simp] theorem complete_cause (k : Cause) (r : Results) : (complete k r s).cause = k := rfl
@[simp] theorem complete_inLen (k : Cause) (r : Results) : (complete k r s).inLen = s.inLen := rfl
@[simp] theorem complete_maxPkt (k : Cause) (r : Results) : (complete k r s).maxPkt = s.maxPkt := rfl
@[simp] theorem complete_outSeq (k : Cause) (r : Results) : (complete k r s).outSeq = r.outSeq := rfl
@[simp] theorem complete_crcRes (k : Cause) (r : Results) : (complete k r s).crcRes = r.crcRes := rfl
@[simp] theorem complete_crcExp (k : Cause) (r : Results) : (complete k r s).crcExp = r.crcExp := rfl
@[simp] theorem complete_frameLen (k : Cause) (r : Results) : (complete k r s).frameLen = r.frameLen := rfl
@[simp] theorem complete_consumed (k : Cause) (r : Results) : (complete k r s).consumed = r.consumed := rfl
@[simp] theorem complete_doneIE (k : Cause) (r : Results) : (complete k r s).doneIE = s.doneIE := rfl
@[simp] theorem complete_accerrIE (k : Cause) (r : Results) : (complete k r s).accerrIE = s.accerrIE := rfl
@[simp] theorem complete_inBuf (k : Cause) (r : Results) : (complete k r s).inBuf = s.inBuf := rfl
@[simp] theorem complete_pend (k : Cause) (r : Results) : (complete k r s).pend = none := rfl
@[simp] theorem complete_faulted (k : Cause) (r : Results) : (complete k r s).faulted = s.faulted := rfl
@[simp] theorem complete_params (k : Cause) (r : Results) : (complete k r s).params = s.params := rfl
@[simp] theorem complete_env (k : Cause) (r : Results) : (complete k r s).env = s.env := rfl

/-! `accept`. -/

@[simp] theorem accept_busy (c : Word) : (accept c s).busy = true := rfl
@[simp] theorem accept_done (c : Word) : (accept c s).done = false := rfl
@[simp] theorem accept_ok (c : Word) : (accept c s).ok = s.ok := rfl
@[simp] theorem accept_accerr (c : Word) : (accept c s).accerr = s.accerr := rfl
@[simp] theorem accept_cause (c : Word) : (accept c s).cause = s.cause := rfl
@[simp] theorem accept_inLen (c : Word) : (accept c s).inLen = s.inLen := rfl
@[simp] theorem accept_maxPkt (c : Word) : (accept c s).maxPkt = s.maxPkt := rfl
@[simp] theorem accept_outSeq (c : Word) : (accept c s).outSeq = s.outSeq := rfl
@[simp] theorem accept_crcRes (c : Word) : (accept c s).crcRes = s.crcRes := rfl
@[simp] theorem accept_crcExp (c : Word) : (accept c s).crcExp = s.crcExp := rfl
@[simp] theorem accept_frameLen (c : Word) : (accept c s).frameLen = s.frameLen := rfl
@[simp] theorem accept_consumed (c : Word) : (accept c s).consumed = s.consumed := rfl
@[simp] theorem accept_doneIE (c : Word) : (accept c s).doneIE = s.doneIE := rfl
@[simp] theorem accept_accerrIE (c : Word) : (accept c s).accerrIE = s.accerrIE := rfl
@[simp] theorem accept_inBuf (c : Word) : (accept c s).inBuf = s.inBuf := rfl
@[simp] theorem accept_pend (c : Word) : (accept c s).pend = some c := rfl
@[simp] theorem accept_faulted (c : Word) : (accept c s).faulted = s.faulted := rfl
@[simp] theorem accept_params (c : Word) : (accept c s).params = s.params := rfl
@[simp] theorem accept_env (c : Word) : (accept c s).env = s.env := rfl

/-! `rejectIllegal`. -/

@[simp] theorem rejectIllegal_busy : (rejectIllegal s).busy = s.busy := rfl
@[simp] theorem rejectIllegal_done : (rejectIllegal s).done = true := rfl
@[simp] theorem rejectIllegal_ok : (rejectIllegal s).ok = false := rfl
@[simp] theorem rejectIllegal_accerr : (rejectIllegal s).accerr = s.accerr := rfl
@[simp] theorem rejectIllegal_cause : (rejectIllegal s).cause = .illegalCmd := rfl
@[simp] theorem rejectIllegal_inLen : (rejectIllegal s).inLen = s.inLen := rfl
@[simp] theorem rejectIllegal_maxPkt : (rejectIllegal s).maxPkt = s.maxPkt := rfl
@[simp] theorem rejectIllegal_outSeq : (rejectIllegal s).outSeq = s.outSeq := rfl
@[simp] theorem rejectIllegal_crcRes : (rejectIllegal s).crcRes = s.crcRes := rfl
@[simp] theorem rejectIllegal_crcExp : (rejectIllegal s).crcExp = s.crcExp := rfl
@[simp] theorem rejectIllegal_frameLen : (rejectIllegal s).frameLen = s.frameLen := rfl
@[simp] theorem rejectIllegal_consumed : (rejectIllegal s).consumed = s.consumed := rfl
@[simp] theorem rejectIllegal_doneIE : (rejectIllegal s).doneIE = s.doneIE := rfl
@[simp] theorem rejectIllegal_accerrIE : (rejectIllegal s).accerrIE = s.accerrIE := rfl
@[simp] theorem rejectIllegal_inBuf : (rejectIllegal s).inBuf = s.inBuf := rfl
@[simp] theorem rejectIllegal_pend : (rejectIllegal s).pend = s.pend := rfl
@[simp] theorem rejectIllegal_faulted : (rejectIllegal s).faulted = s.faulted := rfl
@[simp] theorem rejectIllegal_params : (rejectIllegal s).params = s.params := rfl
@[simp] theorem rejectIllegal_env : (rejectIllegal s).env = s.env := rfl

/-! `resetBlock`. -/

@[simp] theorem resetBlock_busy : (resetBlock s).busy = false := rfl
@[simp] theorem resetBlock_done : (resetBlock s).done = false := rfl
@[simp] theorem resetBlock_ok : (resetBlock s).ok = false := rfl
@[simp] theorem resetBlock_accerr : (resetBlock s).accerr = false := rfl
@[simp] theorem resetBlock_cause : (resetBlock s).cause = .none := rfl
@[simp] theorem resetBlock_inLen : (resetBlock s).inLen = 0 := rfl
@[simp] theorem resetBlock_maxPkt : (resetBlock s).maxPkt = Config.maxPktDefault := rfl
@[simp] theorem resetBlock_outSeq : (resetBlock s).outSeq = [] := rfl
@[simp] theorem resetBlock_crcRes : (resetBlock s).crcRes = 0#32 := rfl
@[simp] theorem resetBlock_crcExp : (resetBlock s).crcExp = 0#32 := rfl
@[simp] theorem resetBlock_frameLen : (resetBlock s).frameLen = 0#32 := rfl
@[simp] theorem resetBlock_consumed : (resetBlock s).consumed = 0 := rfl
@[simp] theorem resetBlock_doneIE : (resetBlock s).doneIE = false := rfl
@[simp] theorem resetBlock_accerrIE : (resetBlock s).accerrIE = false := rfl
@[simp] theorem resetBlock_inBuf : (resetBlock s).inBuf = [] := rfl
@[simp] theorem resetBlock_pend : (resetBlock s).pend = none := rfl
@[simp] theorem resetBlock_faulted : (resetBlock s).faulted = s.faulted := rfl
@[simp] theorem resetBlock_params : (resetBlock s).params = s.params := rfl
@[simp] theorem resetBlock_env : (resetBlock s).env = s.env := rfl

/-! `markFault`. -/

@[simp] theorem markFault_busy (f : Fault) : (markFault f s).busy = s.busy := rfl
@[simp] theorem markFault_done (f : Fault) : (markFault f s).done = s.done := rfl
@[simp] theorem markFault_ok (f : Fault) : (markFault f s).ok = s.ok := rfl
@[simp] theorem markFault_accerr (f : Fault) : (markFault f s).accerr = s.accerr := rfl
@[simp] theorem markFault_cause (f : Fault) : (markFault f s).cause = s.cause := rfl
@[simp] theorem markFault_inLen (f : Fault) : (markFault f s).inLen = s.inLen := rfl
@[simp] theorem markFault_maxPkt (f : Fault) : (markFault f s).maxPkt = s.maxPkt := rfl
@[simp] theorem markFault_outSeq (f : Fault) : (markFault f s).outSeq = s.outSeq := rfl
@[simp] theorem markFault_crcRes (f : Fault) : (markFault f s).crcRes = s.crcRes := rfl
@[simp] theorem markFault_crcExp (f : Fault) : (markFault f s).crcExp = s.crcExp := rfl
@[simp] theorem markFault_frameLen (f : Fault) : (markFault f s).frameLen = s.frameLen := rfl
@[simp] theorem markFault_consumed (f : Fault) : (markFault f s).consumed = s.consumed := rfl
@[simp] theorem markFault_doneIE (f : Fault) : (markFault f s).doneIE = s.doneIE := rfl
@[simp] theorem markFault_accerrIE (f : Fault) : (markFault f s).accerrIE = s.accerrIE := rfl
@[simp] theorem markFault_inBuf (f : Fault) : (markFault f s).inBuf = s.inBuf := rfl
@[simp] theorem markFault_pend (f : Fault) : (markFault f s).pend = s.pend := rfl
@[simp] theorem markFault_faulted (f : Fault) : (markFault f s).faulted = some f := rfl
@[simp] theorem markFault_params (f : Fault) : (markFault f s).params = s.params := rfl
@[simp] theorem markFault_env (f : Fault) : (markFault f s).env = s.env := rfl

/-! `writeStatus`. -/

@[simp] theorem writeStatus_busy (v : Word) : (writeStatus v s).busy = s.busy := rfl
@[simp] theorem writeStatus_done (v : Word) : (writeStatus v s).done = (s.done && !v.getLsbD 1) := rfl
@[simp] theorem writeStatus_ok (v : Word) : (writeStatus v s).ok = s.ok := rfl
@[simp] theorem writeStatus_accerr (v : Word) : (writeStatus v s).accerr = (s.accerr && !v.getLsbD 3) := rfl
@[simp] theorem writeStatus_cause (v : Word) : (writeStatus v s).cause = s.cause := rfl
@[simp] theorem writeStatus_inLen (v : Word) : (writeStatus v s).inLen = s.inLen := rfl
@[simp] theorem writeStatus_maxPkt (v : Word) : (writeStatus v s).maxPkt = s.maxPkt := rfl
@[simp] theorem writeStatus_outSeq (v : Word) : (writeStatus v s).outSeq = s.outSeq := rfl
@[simp] theorem writeStatus_crcRes (v : Word) : (writeStatus v s).crcRes = s.crcRes := rfl
@[simp] theorem writeStatus_crcExp (v : Word) : (writeStatus v s).crcExp = s.crcExp := rfl
@[simp] theorem writeStatus_frameLen (v : Word) : (writeStatus v s).frameLen = s.frameLen := rfl
@[simp] theorem writeStatus_consumed (v : Word) : (writeStatus v s).consumed = s.consumed := rfl
@[simp] theorem writeStatus_doneIE (v : Word) : (writeStatus v s).doneIE = s.doneIE := rfl
@[simp] theorem writeStatus_accerrIE (v : Word) : (writeStatus v s).accerrIE = s.accerrIE := rfl
@[simp] theorem writeStatus_inBuf (v : Word) : (writeStatus v s).inBuf = s.inBuf := rfl
@[simp] theorem writeStatus_pend (v : Word) : (writeStatus v s).pend = s.pend := rfl
@[simp] theorem writeStatus_faulted (v : Word) : (writeStatus v s).faulted = s.faulted := rfl
@[simp] theorem writeStatus_params (v : Word) : (writeStatus v s).params = s.params := rfl
@[simp] theorem writeStatus_env (v : Word) : (writeStatus v s).env = s.env := rfl

/-! `writeIrqEn`. -/

@[simp] theorem writeIrqEn_busy (v : Word) : (writeIrqEn v s).busy = s.busy := rfl
@[simp] theorem writeIrqEn_done (v : Word) : (writeIrqEn v s).done = s.done := rfl
@[simp] theorem writeIrqEn_ok (v : Word) : (writeIrqEn v s).ok = s.ok := rfl
@[simp] theorem writeIrqEn_accerr (v : Word) : (writeIrqEn v s).accerr = s.accerr := rfl
@[simp] theorem writeIrqEn_cause (v : Word) : (writeIrqEn v s).cause = s.cause := rfl
@[simp] theorem writeIrqEn_inLen (v : Word) : (writeIrqEn v s).inLen = s.inLen := rfl
@[simp] theorem writeIrqEn_maxPkt (v : Word) : (writeIrqEn v s).maxPkt = s.maxPkt := rfl
@[simp] theorem writeIrqEn_outSeq (v : Word) : (writeIrqEn v s).outSeq = s.outSeq := rfl
@[simp] theorem writeIrqEn_crcRes (v : Word) : (writeIrqEn v s).crcRes = s.crcRes := rfl
@[simp] theorem writeIrqEn_crcExp (v : Word) : (writeIrqEn v s).crcExp = s.crcExp := rfl
@[simp] theorem writeIrqEn_frameLen (v : Word) : (writeIrqEn v s).frameLen = s.frameLen := rfl
@[simp] theorem writeIrqEn_consumed (v : Word) : (writeIrqEn v s).consumed = s.consumed := rfl
@[simp] theorem writeIrqEn_doneIE (v : Word) : (writeIrqEn v s).doneIE = v.getLsbD 0 := rfl
@[simp] theorem writeIrqEn_accerrIE (v : Word) : (writeIrqEn v s).accerrIE = v.getLsbD 1 := rfl
@[simp] theorem writeIrqEn_inBuf (v : Word) : (writeIrqEn v s).inBuf = s.inBuf := rfl
@[simp] theorem writeIrqEn_pend (v : Word) : (writeIrqEn v s).pend = s.pend := rfl
@[simp] theorem writeIrqEn_faulted (v : Word) : (writeIrqEn v s).faulted = s.faulted := rfl
@[simp] theorem writeIrqEn_params (v : Word) : (writeIrqEn v s).params = s.params := rfl
@[simp] theorem writeIrqEn_env (v : Word) : (writeIrqEn v s).env = s.env := rfl

/-! `writeInLen`. -/

@[simp] theorem writeInLen_busy (v : Word) : (writeInLen v s).busy = s.busy := rfl
@[simp] theorem writeInLen_done (v : Word) : (writeInLen v s).done = s.done := rfl
@[simp] theorem writeInLen_ok (v : Word) : (writeInLen v s).ok = s.ok := rfl
@[simp] theorem writeInLen_accerr (v : Word) : (writeInLen v s).accerr = s.accerr := rfl
@[simp] theorem writeInLen_cause (v : Word) : (writeInLen v s).cause = s.cause := rfl
@[simp] theorem writeInLen_inLen (v : Word) : (writeInLen v s).inLen = v.toNat := rfl
@[simp] theorem writeInLen_maxPkt (v : Word) : (writeInLen v s).maxPkt = s.maxPkt := rfl
@[simp] theorem writeInLen_outSeq (v : Word) : (writeInLen v s).outSeq = s.outSeq := rfl
@[simp] theorem writeInLen_crcRes (v : Word) : (writeInLen v s).crcRes = s.crcRes := rfl
@[simp] theorem writeInLen_crcExp (v : Word) : (writeInLen v s).crcExp = s.crcExp := rfl
@[simp] theorem writeInLen_frameLen (v : Word) : (writeInLen v s).frameLen = s.frameLen := rfl
@[simp] theorem writeInLen_consumed (v : Word) : (writeInLen v s).consumed = s.consumed := rfl
@[simp] theorem writeInLen_doneIE (v : Word) : (writeInLen v s).doneIE = s.doneIE := rfl
@[simp] theorem writeInLen_accerrIE (v : Word) : (writeInLen v s).accerrIE = s.accerrIE := rfl
@[simp] theorem writeInLen_inBuf (v : Word) : (writeInLen v s).inBuf = s.inBuf := rfl
@[simp] theorem writeInLen_pend (v : Word) : (writeInLen v s).pend = s.pend := rfl
@[simp] theorem writeInLen_faulted (v : Word) : (writeInLen v s).faulted = s.faulted := rfl
@[simp] theorem writeInLen_params (v : Word) : (writeInLen v s).params = s.params := rfl
@[simp] theorem writeInLen_env (v : Word) : (writeInLen v s).env = s.env := rfl

/-! `writeMaxPkt`. -/

@[simp] theorem writeMaxPkt_busy (v : Word) : (writeMaxPkt v s).busy = s.busy := rfl
@[simp] theorem writeMaxPkt_done (v : Word) : (writeMaxPkt v s).done = s.done := rfl
@[simp] theorem writeMaxPkt_ok (v : Word) : (writeMaxPkt v s).ok = s.ok := rfl
@[simp] theorem writeMaxPkt_accerr (v : Word) : (writeMaxPkt v s).accerr = s.accerr := rfl
@[simp] theorem writeMaxPkt_cause (v : Word) : (writeMaxPkt v s).cause = s.cause := rfl
@[simp] theorem writeMaxPkt_inLen (v : Word) : (writeMaxPkt v s).inLen = s.inLen := rfl
@[simp] theorem writeMaxPkt_maxPkt (v : Word) : (writeMaxPkt v s).maxPkt = v.toNat := rfl
@[simp] theorem writeMaxPkt_outSeq (v : Word) : (writeMaxPkt v s).outSeq = s.outSeq := rfl
@[simp] theorem writeMaxPkt_crcRes (v : Word) : (writeMaxPkt v s).crcRes = s.crcRes := rfl
@[simp] theorem writeMaxPkt_crcExp (v : Word) : (writeMaxPkt v s).crcExp = s.crcExp := rfl
@[simp] theorem writeMaxPkt_frameLen (v : Word) : (writeMaxPkt v s).frameLen = s.frameLen := rfl
@[simp] theorem writeMaxPkt_consumed (v : Word) : (writeMaxPkt v s).consumed = s.consumed := rfl
@[simp] theorem writeMaxPkt_doneIE (v : Word) : (writeMaxPkt v s).doneIE = s.doneIE := rfl
@[simp] theorem writeMaxPkt_accerrIE (v : Word) : (writeMaxPkt v s).accerrIE = s.accerrIE := rfl
@[simp] theorem writeMaxPkt_inBuf (v : Word) : (writeMaxPkt v s).inBuf = s.inBuf := rfl
@[simp] theorem writeMaxPkt_pend (v : Word) : (writeMaxPkt v s).pend = s.pend := rfl
@[simp] theorem writeMaxPkt_faulted (v : Word) : (writeMaxPkt v s).faulted = s.faulted := rfl
@[simp] theorem writeMaxPkt_params (v : Word) : (writeMaxPkt v s).params = s.params := rfl
@[simp] theorem writeMaxPkt_env (v : Word) : (writeMaxPkt v s).env = s.env := rfl

/-! `storeByte`. -/

@[simp] theorem storeByte_busy (i : Nat) (v : Word) : (storeByte i v s).busy = s.busy := rfl
@[simp] theorem storeByte_done (i : Nat) (v : Word) : (storeByte i v s).done = s.done := rfl
@[simp] theorem storeByte_ok (i : Nat) (v : Word) : (storeByte i v s).ok = s.ok := rfl
@[simp] theorem storeByte_accerr (i : Nat) (v : Word) : (storeByte i v s).accerr = s.accerr := rfl
@[simp] theorem storeByte_cause (i : Nat) (v : Word) : (storeByte i v s).cause = s.cause := rfl
@[simp] theorem storeByte_inLen (i : Nat) (v : Word) : (storeByte i v s).inLen = s.inLen := rfl
@[simp] theorem storeByte_maxPkt (i : Nat) (v : Word) : (storeByte i v s).maxPkt = s.maxPkt := rfl
@[simp] theorem storeByte_outSeq (i : Nat) (v : Word) : (storeByte i v s).outSeq = s.outSeq := rfl
@[simp] theorem storeByte_crcRes (i : Nat) (v : Word) : (storeByte i v s).crcRes = s.crcRes := rfl
@[simp] theorem storeByte_crcExp (i : Nat) (v : Word) : (storeByte i v s).crcExp = s.crcExp := rfl
@[simp] theorem storeByte_frameLen (i : Nat) (v : Word) : (storeByte i v s).frameLen = s.frameLen := rfl
@[simp] theorem storeByte_consumed (i : Nat) (v : Word) : (storeByte i v s).consumed = s.consumed := rfl
@[simp] theorem storeByte_doneIE (i : Nat) (v : Word) : (storeByte i v s).doneIE = s.doneIE := rfl
@[simp] theorem storeByte_accerrIE (i : Nat) (v : Word) : (storeByte i v s).accerrIE = s.accerrIE := rfl
@[simp] theorem storeByte_inBuf (i : Nat) (v : Word) : (storeByte i v s).inBuf = Memory.write s.inBuf i (v.extractLsb' 0 8) := rfl
@[simp] theorem storeByte_pend (i : Nat) (v : Word) : (storeByte i v s).pend = s.pend := rfl
@[simp] theorem storeByte_faulted (i : Nat) (v : Word) : (storeByte i v s).faulted = s.faulted := rfl
@[simp] theorem storeByte_params (i : Nat) (v : Word) : (storeByte i v s).params = s.params := rfl
@[simp] theorem storeByte_env (i : Nat) (v : Word) : (storeByte i v s).env = s.env := rfl

/-! `storeWord`. -/

@[simp] theorem storeWord_busy (i : Nat) (v : Word) : (storeWord i v s).busy = s.busy := rfl
@[simp] theorem storeWord_done (i : Nat) (v : Word) : (storeWord i v s).done = s.done := rfl
@[simp] theorem storeWord_ok (i : Nat) (v : Word) : (storeWord i v s).ok = s.ok := rfl
@[simp] theorem storeWord_accerr (i : Nat) (v : Word) : (storeWord i v s).accerr = s.accerr := rfl
@[simp] theorem storeWord_cause (i : Nat) (v : Word) : (storeWord i v s).cause = s.cause := rfl
@[simp] theorem storeWord_inLen (i : Nat) (v : Word) : (storeWord i v s).inLen = s.inLen := rfl
@[simp] theorem storeWord_maxPkt (i : Nat) (v : Word) : (storeWord i v s).maxPkt = s.maxPkt := rfl
@[simp] theorem storeWord_outSeq (i : Nat) (v : Word) : (storeWord i v s).outSeq = s.outSeq := rfl
@[simp] theorem storeWord_crcRes (i : Nat) (v : Word) : (storeWord i v s).crcRes = s.crcRes := rfl
@[simp] theorem storeWord_crcExp (i : Nat) (v : Word) : (storeWord i v s).crcExp = s.crcExp := rfl
@[simp] theorem storeWord_frameLen (i : Nat) (v : Word) : (storeWord i v s).frameLen = s.frameLen := rfl
@[simp] theorem storeWord_consumed (i : Nat) (v : Word) : (storeWord i v s).consumed = s.consumed := rfl
@[simp] theorem storeWord_doneIE (i : Nat) (v : Word) : (storeWord i v s).doneIE = s.doneIE := rfl
@[simp] theorem storeWord_accerrIE (i : Nat) (v : Word) : (storeWord i v s).accerrIE = s.accerrIE := rfl
@[simp] theorem storeWord_inBuf (i : Nat) (v : Word) : (storeWord i v s).inBuf = Memory.writeWord s.inBuf i v := rfl
@[simp] theorem storeWord_pend (i : Nat) (v : Word) : (storeWord i v s).pend = s.pend := rfl
@[simp] theorem storeWord_faulted (i : Nat) (v : Word) : (storeWord i v s).faulted = s.faulted := rfl
@[simp] theorem storeWord_params (i : Nat) (v : Word) : (storeWord i v s).params = s.params := rfl
@[simp] theorem storeWord_env (i : Nat) (v : Word) : (storeWord i v s).env = s.env := rfl

/-! `setAccErr`. -/

@[simp] theorem setAccErr_busy : (setAccErr s).busy = s.busy := rfl
@[simp] theorem setAccErr_done : (setAccErr s).done = s.done := rfl
@[simp] theorem setAccErr_ok : (setAccErr s).ok = s.ok := rfl
@[simp] theorem setAccErr_accerr : (setAccErr s).accerr = true := rfl
@[simp] theorem setAccErr_cause : (setAccErr s).cause = s.cause := rfl
@[simp] theorem setAccErr_inLen : (setAccErr s).inLen = s.inLen := rfl
@[simp] theorem setAccErr_maxPkt : (setAccErr s).maxPkt = s.maxPkt := rfl
@[simp] theorem setAccErr_outSeq : (setAccErr s).outSeq = s.outSeq := rfl
@[simp] theorem setAccErr_crcRes : (setAccErr s).crcRes = s.crcRes := rfl
@[simp] theorem setAccErr_crcExp : (setAccErr s).crcExp = s.crcExp := rfl
@[simp] theorem setAccErr_frameLen : (setAccErr s).frameLen = s.frameLen := rfl
@[simp] theorem setAccErr_consumed : (setAccErr s).consumed = s.consumed := rfl
@[simp] theorem setAccErr_doneIE : (setAccErr s).doneIE = s.doneIE := rfl
@[simp] theorem setAccErr_accerrIE : (setAccErr s).accerrIE = s.accerrIE := rfl
@[simp] theorem setAccErr_inBuf : (setAccErr s).inBuf = s.inBuf := rfl
@[simp] theorem setAccErr_pend : (setAccErr s).pend = s.pend := rfl
@[simp] theorem setAccErr_faulted : (setAccErr s).faulted = s.faulted := rfl
@[simp] theorem setAccErr_params : (setAccErr s).params = s.params := rfl
@[simp] theorem setAccErr_env : (setAccErr s).env = s.env := rfl

/-! `respond`. -/

@[simp] theorem respond_busy (r : Response) : (respond r s).busy = s.busy := rfl
@[simp] theorem respond_done (r : Response) : (respond r s).done = s.done := rfl
@[simp] theorem respond_ok (r : Response) : (respond r s).ok = s.ok := rfl
@[simp] theorem respond_accerr (r : Response) : (respond r s).accerr = s.accerr := rfl
@[simp] theorem respond_cause (r : Response) : (respond r s).cause = s.cause := rfl
@[simp] theorem respond_inLen (r : Response) : (respond r s).inLen = s.inLen := rfl
@[simp] theorem respond_maxPkt (r : Response) : (respond r s).maxPkt = s.maxPkt := rfl
@[simp] theorem respond_outSeq (r : Response) : (respond r s).outSeq = s.outSeq := rfl
@[simp] theorem respond_crcRes (r : Response) : (respond r s).crcRes = s.crcRes := rfl
@[simp] theorem respond_crcExp (r : Response) : (respond r s).crcExp = s.crcExp := rfl
@[simp] theorem respond_frameLen (r : Response) : (respond r s).frameLen = s.frameLen := rfl
@[simp] theorem respond_consumed (r : Response) : (respond r s).consumed = s.consumed := rfl
@[simp] theorem respond_doneIE (r : Response) : (respond r s).doneIE = s.doneIE := rfl
@[simp] theorem respond_accerrIE (r : Response) : (respond r s).accerrIE = s.accerrIE := rfl
@[simp] theorem respond_inBuf (r : Response) : (respond r s).inBuf = s.inBuf := rfl
@[simp] theorem respond_pend (r : Response) : (respond r s).pend = s.pend := rfl
@[simp] theorem respond_faulted (r : Response) : (respond r s).faulted = s.faulted := rfl
@[simp] theorem respond_params (r : Response) : (respond r s).params = s.params := rfl
@[simp] theorem respond_env (r : Response) : (respond r s).env = { s.env with resp := some r } := rfl

/-! `noResponse`. -/

@[simp] theorem noResponse_busy : (noResponse s).busy = s.busy := rfl
@[simp] theorem noResponse_done : (noResponse s).done = s.done := rfl
@[simp] theorem noResponse_ok : (noResponse s).ok = s.ok := rfl
@[simp] theorem noResponse_accerr : (noResponse s).accerr = s.accerr := rfl
@[simp] theorem noResponse_cause : (noResponse s).cause = s.cause := rfl
@[simp] theorem noResponse_inLen : (noResponse s).inLen = s.inLen := rfl
@[simp] theorem noResponse_maxPkt : (noResponse s).maxPkt = s.maxPkt := rfl
@[simp] theorem noResponse_outSeq : (noResponse s).outSeq = s.outSeq := rfl
@[simp] theorem noResponse_crcRes : (noResponse s).crcRes = s.crcRes := rfl
@[simp] theorem noResponse_crcExp : (noResponse s).crcExp = s.crcExp := rfl
@[simp] theorem noResponse_frameLen : (noResponse s).frameLen = s.frameLen := rfl
@[simp] theorem noResponse_consumed : (noResponse s).consumed = s.consumed := rfl
@[simp] theorem noResponse_doneIE : (noResponse s).doneIE = s.doneIE := rfl
@[simp] theorem noResponse_accerrIE : (noResponse s).accerrIE = s.accerrIE := rfl
@[simp] theorem noResponse_inBuf : (noResponse s).inBuf = s.inBuf := rfl
@[simp] theorem noResponse_pend : (noResponse s).pend = s.pend := rfl
@[simp] theorem noResponse_faulted : (noResponse s).faulted = s.faulted := rfl
@[simp] theorem noResponse_params : (noResponse s).params = s.params := rfl
@[simp] theorem noResponse_env : (noResponse s).env = { s.env with resp := none } := rfl

/-! `busError`. -/

@[simp] theorem busError_busy : (busError s).busy = s.busy := rfl
@[simp] theorem busError_done : (busError s).done = s.done := rfl
@[simp] theorem busError_ok : (busError s).ok = s.ok := rfl
@[simp] theorem busError_accerr : (busError s).accerr = s.accerr := rfl
@[simp] theorem busError_cause : (busError s).cause = s.cause := rfl
@[simp] theorem busError_inLen : (busError s).inLen = s.inLen := rfl
@[simp] theorem busError_maxPkt : (busError s).maxPkt = s.maxPkt := rfl
@[simp] theorem busError_outSeq : (busError s).outSeq = s.outSeq := rfl
@[simp] theorem busError_crcRes : (busError s).crcRes = s.crcRes := rfl
@[simp] theorem busError_crcExp : (busError s).crcExp = s.crcExp := rfl
@[simp] theorem busError_frameLen : (busError s).frameLen = s.frameLen := rfl
@[simp] theorem busError_consumed : (busError s).consumed = s.consumed := rfl
@[simp] theorem busError_doneIE : (busError s).doneIE = s.doneIE := rfl
@[simp] theorem busError_accerrIE : (busError s).accerrIE = s.accerrIE := rfl
@[simp] theorem busError_inBuf : (busError s).inBuf = s.inBuf := rfl
@[simp] theorem busError_pend : (busError s).pend = s.pend := rfl
@[simp] theorem busError_faulted : (busError s).faulted = s.faulted := rfl
@[simp] theorem busError_params : (busError s).params = s.params := rfl
@[simp] theorem busError_env : (busError s).env = { s.env with resp := some .busError } := rfl

/-! `countDraw`. -/

@[simp] theorem countDraw_busy : (countDraw s).busy = s.busy := rfl
@[simp] theorem countDraw_done : (countDraw s).done = s.done := rfl
@[simp] theorem countDraw_ok : (countDraw s).ok = s.ok := rfl
@[simp] theorem countDraw_accerr : (countDraw s).accerr = s.accerr := rfl
@[simp] theorem countDraw_cause : (countDraw s).cause = s.cause := rfl
@[simp] theorem countDraw_inLen : (countDraw s).inLen = s.inLen := rfl
@[simp] theorem countDraw_maxPkt : (countDraw s).maxPkt = s.maxPkt := rfl
@[simp] theorem countDraw_outSeq : (countDraw s).outSeq = s.outSeq := rfl
@[simp] theorem countDraw_crcRes : (countDraw s).crcRes = s.crcRes := rfl
@[simp] theorem countDraw_crcExp : (countDraw s).crcExp = s.crcExp := rfl
@[simp] theorem countDraw_frameLen : (countDraw s).frameLen = s.frameLen := rfl
@[simp] theorem countDraw_consumed : (countDraw s).consumed = s.consumed := rfl
@[simp] theorem countDraw_doneIE : (countDraw s).doneIE = s.doneIE := rfl
@[simp] theorem countDraw_accerrIE : (countDraw s).accerrIE = s.accerrIE := rfl
@[simp] theorem countDraw_inBuf : (countDraw s).inBuf = s.inBuf := rfl
@[simp] theorem countDraw_pend : (countDraw s).pend = s.pend := rfl
@[simp] theorem countDraw_faulted : (countDraw s).faulted = s.faulted := rfl
@[simp] theorem countDraw_params : (countDraw s).params = s.params := rfl
@[simp] theorem countDraw_env : (countDraw s).env = { s.env with draws := s.env.draws + 1 } := rfl

/-! `popAgent`. -/

@[simp] theorem popAgent_busy (l : List Agent) : (popAgent l s).busy = s.busy := rfl
@[simp] theorem popAgent_done (l : List Agent) : (popAgent l s).done = s.done := rfl
@[simp] theorem popAgent_ok (l : List Agent) : (popAgent l s).ok = s.ok := rfl
@[simp] theorem popAgent_accerr (l : List Agent) : (popAgent l s).accerr = s.accerr := rfl
@[simp] theorem popAgent_cause (l : List Agent) : (popAgent l s).cause = s.cause := rfl
@[simp] theorem popAgent_inLen (l : List Agent) : (popAgent l s).inLen = s.inLen := rfl
@[simp] theorem popAgent_maxPkt (l : List Agent) : (popAgent l s).maxPkt = s.maxPkt := rfl
@[simp] theorem popAgent_outSeq (l : List Agent) : (popAgent l s).outSeq = s.outSeq := rfl
@[simp] theorem popAgent_crcRes (l : List Agent) : (popAgent l s).crcRes = s.crcRes := rfl
@[simp] theorem popAgent_crcExp (l : List Agent) : (popAgent l s).crcExp = s.crcExp := rfl
@[simp] theorem popAgent_frameLen (l : List Agent) : (popAgent l s).frameLen = s.frameLen := rfl
@[simp] theorem popAgent_consumed (l : List Agent) : (popAgent l s).consumed = s.consumed := rfl
@[simp] theorem popAgent_doneIE (l : List Agent) : (popAgent l s).doneIE = s.doneIE := rfl
@[simp] theorem popAgent_accerrIE (l : List Agent) : (popAgent l s).accerrIE = s.accerrIE := rfl
@[simp] theorem popAgent_inBuf (l : List Agent) : (popAgent l s).inBuf = s.inBuf := rfl
@[simp] theorem popAgent_pend (l : List Agent) : (popAgent l s).pend = s.pend := rfl
@[simp] theorem popAgent_faulted (l : List Agent) : (popAgent l s).faulted = s.faulted := rfl
@[simp] theorem popAgent_params (l : List Agent) : (popAgent l s).params = s.params := rfl
@[simp] theorem popAgent_env (l : List Agent) : (popAgent l s).env = { s.env with schedule := l } := rfl

/-! `setProgram`. -/

@[simp] theorem setProgram_busy (p : List Line) : (setProgram p s).busy = s.busy := rfl
@[simp] theorem setProgram_done (p : List Line) : (setProgram p s).done = s.done := rfl
@[simp] theorem setProgram_ok (p : List Line) : (setProgram p s).ok = s.ok := rfl
@[simp] theorem setProgram_accerr (p : List Line) : (setProgram p s).accerr = s.accerr := rfl
@[simp] theorem setProgram_cause (p : List Line) : (setProgram p s).cause = s.cause := rfl
@[simp] theorem setProgram_inLen (p : List Line) : (setProgram p s).inLen = s.inLen := rfl
@[simp] theorem setProgram_maxPkt (p : List Line) : (setProgram p s).maxPkt = s.maxPkt := rfl
@[simp] theorem setProgram_outSeq (p : List Line) : (setProgram p s).outSeq = s.outSeq := rfl
@[simp] theorem setProgram_crcRes (p : List Line) : (setProgram p s).crcRes = s.crcRes := rfl
@[simp] theorem setProgram_crcExp (p : List Line) : (setProgram p s).crcExp = s.crcExp := rfl
@[simp] theorem setProgram_frameLen (p : List Line) : (setProgram p s).frameLen = s.frameLen := rfl
@[simp] theorem setProgram_consumed (p : List Line) : (setProgram p s).consumed = s.consumed := rfl
@[simp] theorem setProgram_doneIE (p : List Line) : (setProgram p s).doneIE = s.doneIE := rfl
@[simp] theorem setProgram_accerrIE (p : List Line) : (setProgram p s).accerrIE = s.accerrIE := rfl
@[simp] theorem setProgram_inBuf (p : List Line) : (setProgram p s).inBuf = s.inBuf := rfl
@[simp] theorem setProgram_pend (p : List Line) : (setProgram p s).pend = s.pend := rfl
@[simp] theorem setProgram_faulted (p : List Line) : (setProgram p s).faulted = s.faulted := rfl
@[simp] theorem setProgram_params (p : List Line) : (setProgram p s).params = s.params := rfl
@[simp] theorem setProgram_env (p : List Line) : (setProgram p s).env = { s.env with program := p } := rfl

end Sys2Proof.Machine
end

