-- ==== Sys2Proof/Laws/Wire.lean ====
section
/-!
SUPPORT. The big-endian fields: their length, and that decoding undoes encoding (00_scope.md R13).
-/

namespace Sys2Proof.Machine

@[simp] theorem be32_length (x : Word) : (be32 x).length = 4 := rfl

/-- `be32dec` of four bytes is their concatenation, the first byte on top. -/
theorem be32dec_four (a b c d : Byte) : be32dec [a, b, c, d] = a ++ b ++ c ++ d := by
  apply BitVec.eq_of_getLsbD_eq
  intro i hi
  simp only [be32dec, List.foldl_cons, List.foldl_nil, BitVec.getLsbD_or, BitVec.getLsbD_shiftLeft, BitVec.getLsbD_append,
    BitVec.getLsbD_setWidth, BitVec.getLsbD_zero]
  interval_cases i <;> simp

/-- `be32dec(be32(x)) = x` (R13). -/
@[simp] theorem be32dec_be32 (x : Word) : be32dec (be32 x) = x := by
  rw [be32, be32dec_four]
  apply BitVec.eq_of_getLsbD_eq
  intro i hi
  simp only [BitVec.getLsbD_append, BitVec.getLsbD_extractLsb']
  split
  · simp_all
  · split
    · simp_all
    · split
      · have : 16 + (i - 8 - 8) = i := by omega
        simp_all
      · have : 24 + (i - 8 - 8 - 8) = i := by omega
        have : i - 8 - 8 - 8 < 8 := by omega
        simp_all

@[simp] theorem appendCRC_length (p : Bytes) : (appendCRC p).length = p.length + 4 := by simp [appendCRC]

@[simp] theorem frameEncode_length (w : Bytes) : (frameEncode w).length = w.length + 4 := by
  simp [frameEncode]
  omega

@[simp] theorem payloadOf_length (w : Bytes) : (payloadOf w).length = w.length - 4 := by simp [payloadOf]

@[simp] theorem payloadOf_appendCRC (p : Bytes) : payloadOf (appendCRC p) = p := by
  simp [payloadOf, appendCRC]

@[simp] theorem trailerOf_appendCRC (p : Bytes) : trailerOf (appendCRC p) = be32 (crc32 p) := by
  simp [trailerOf, appendCRC]

/-- The length prefix of a Frame, whatever follows it. -/
@[simp] theorem take_frameEncode (w t : Bytes) : (frameEncode w ++ t).take 4 = be32 (BitVec.ofNat 32 w.length) := by
  rw [frameEncode, List.append_assoc, List.take_append_of_le_length (by simp), List.take_of_length_le (by simp)]

/-- The rest of a Frame after its length prefix. -/
@[simp] theorem drop_frameEncode (w t : Bytes) : (frameEncode w ++ t).drop 4 = w ++ t := by
  rw [frameEncode, List.append_assoc, List.drop_append_of_le_length (by simp), List.drop_of_length_le (by simp),
    List.nil_append]

/-- The verifier on a Wire Unit that is too short (R141). -/
theorem verifyPacket_short {w : Bytes} (h : w.length < 4) : (verifyPacket w).short = true := by
  simp [verifyPacket, h]

/-- The verifier on a Wire Unit of at least four bytes (R141). -/
theorem verifyPacket_long {w : Bytes} (h : 4 ≤ w.length) :
    verifyPacket w = { payload := payloadOf w, ok := crc32 (payloadOf w) == be32dec (trailerOf w), short := false,
                       expected := be32dec (trailerOf w), computed := crc32 (payloadOf w) } := by
  simp [verifyPacket, Nat.not_lt.2 h]

/-- The verifier on a payload and a four-byte trailer (R141). -/
theorem verifyPacket_append (p t : Bytes) (ht : t.length = 4) :
    verifyPacket (p ++ t) = { payload := p, ok := crc32 p == be32dec t, short := false, expected := be32dec t,
                              computed := crc32 p } := by
  rw [verifyPacket_long (by simp; omega), show payloadOf (p ++ t) = p by simp [payloadOf, ht],
    show trailerOf (p ++ t) = t by simp [trailerOf, ht]]

/-- The payload is never longer than the Wire Unit without its trailer. -/
theorem verifyPacket_payload_length (w : Bytes) : (verifyPacket w).payload.length = w.length - 4 := by
  by_cases h : w.length < 4
  · simp [verifyPacket, h]
    omega
  · simp [verifyPacket, h]

end Sys2Proof.Machine
end

