-- ==== Sys2Proof/Laws/Exec.lean ====
section
/-!
SUPPORT. What a command can do, said once: it stops with UnwrittenInput, or it ends in one completion whose results fit
the buffer. SRESET is the one command that is no completion.
-/

namespace Sys2Proof.Machine

/-- The results of a completion fit the buffers when the operands do. -/
def Results.Fits (r : Results) (s : State) : Prop :=
  s.inLen ≤ s.params.bufSize → s.maxPkt + 8 ≤ s.params.bufSize →
    r.outSeq.length ≤ s.params.bufSize ∧ r.consumed ≤ s.params.bufSize

/-- The two ends of a command other than SRESET. -/
def Ends (s : State) (o : Result) : Prop :=
  (∃ k r, o = .next (complete k r s) ∧ r.Fits s) ∨ o = .fault .unwrittenInput

theorem ends_empty (k : Cause) (len : Word) (s : State) : Ends s (.next (complete k { frameLen := len } s)) :=
  .inl ⟨k, _, rfl, fun _ _ => ⟨Nat.zero_le _, Nat.zero_le _⟩⟩

theorem ends_withInput {s : State} {a n : Nat} {k : Bytes → Result}
    (h : ∀ p, Memory.slice s.inBuf a n = some p → Ends s (k p)) : Ends s (withInput s a n k) := by
  rcases withInput_cases s a n k with ⟨p, hp, e⟩ | ⟨-, e⟩
  · rw [e]
    exact h p hp
  · rw [e]
    exact .inr rfl

theorem execCrc_ends (s : State) : Ends s (execCrc s) :=
  ends_withInput fun _ _ => .inl ⟨_, _, rfl, fun _ _ => ⟨Nat.zero_le _, Nat.zero_le _⟩⟩

theorem execAppend_ends (s : State) : Ends s (execAppend s) := by
  unfold execAppend
  split
  · exact ends_empty _ _ s
  · refine ends_withInput fun p hp => .inl ⟨_, _, rfl, fun _ _ => ⟨?_, Nat.zero_le _⟩⟩
    have := Memory.slice_length hp
    simp only [appendCRC_length]
    omega

theorem execVerify_ends (s : State) : Ends s (execVerify s) := by
  unfold execVerify
  split
  · exact ends_empty _ _ s
  · refine ends_withInput fun p hp => .inl ⟨_, _, rfl, fun _ _ => ⟨?_, Nat.zero_le _⟩⟩
    have := Memory.slice_length hp
    simp only [verifyPacket_payload_length]
    omega

theorem execFenc_ends (s : State) : Ends s (execFenc s) := by
  unfold execFenc
  split
  · exact ends_empty _ _ s
  · refine ends_withInput fun p hp => .inl ⟨_, _, rfl, fun _ _ => ⟨?_, Nat.zero_le _⟩⟩
    have := Memory.slice_length hp
    simp only [frameEncode_length]
    omega

theorem recvVerdict_ends {len : Word} {w : Bytes} {s : State} (hw : w.length = len.toNat)
    (hl : 4 + len.toNat ≤ s.inLen) : Ends s (recvVerdict len w s) := by
  unfold recvVerdict
  split
  · exact .inl ⟨_, _, rfl, fun h _ => ⟨Nat.zero_le _, Nat.le_trans hl h⟩⟩
  · refine .inl ⟨_, _, rfl, fun h _ => ⟨?_, Nat.le_trans hl h⟩⟩
    simp only [verifyPacket_payload_length]
    omega

theorem recvFrame_ends (eos : Bool) (s : State) : Ends s (recvFrame eos s) := by
  unfold recvFrame
  split
  · exact ends_empty _ _ s
  · refine ends_withInput fun p _ => ?_
    unfold recvBody
    split
    · exact ends_empty _ _ s
    · split
      · exact ends_empty _ _ s
      · exact ends_withInput fun w hw => recvVerdict_ends (Memory.slice_length hw) (by omega)

theorem execSend_ends (s : State) : Ends s (execSend s) := by
  unfold execSend
  split
  · exact ends_empty _ _ s
  · refine ends_withInput fun p hp => .inl ⟨_, _, rfl, fun _ _ => ⟨?_, Nat.zero_le _⟩⟩
    have := Memory.slice_length hp
    simp only [frameEncode_length, appendCRC_length]
    omega

/-- Every command but SRESET ends in one completion or stops with UnwrittenInput. -/
theorem exec_ends {i : Instr} (hi : i ≠ .sreset) (s : State) : Ends s (exec i s) := by
  cases i with
  | crc => exact execCrc_ends s
  | append => exact execAppend_ends s
  | verify => exact execVerify_ends s
  | fenc => exact execFenc_ends s
  | recv => exact recvFrame_ends false s
  | recvEos => exact recvFrame_ends true s
  | send => exact execSend_ends s
  | sreset => exact absurd rfl hi

/-- A next state of a command other than SRESET is a completion of the state it ran in. -/
theorem exec_next {i : Instr} {s t : State} (hi : i ≠ .sreset) (h : exec i s = .next t) :
    ∃ k r, t = complete k r s ∧ r.Fits s := by
  rcases exec_ends hi s with ⟨k, r, e, hr⟩ | e
  · rw [e] at h
    cases h
    exact ⟨k, r, rfl, hr⟩
  · rw [e] at h
    cases h

/-- SRESET resets the block. -/
@[simp] theorem exec_sreset (s : State) : exec .sreset s = .next (resetBlock s) := rfl

/-- Running a command other than SRESET: a completion, or the fault mark. -/
theorem runCommand_cases {i : Instr} (hi : i ≠ .sreset) (s : State) :
    (∃ k r, runCommand i s = .next (complete k r s) ∧ r.Fits s) ∨
      runCommand i s = .next (markFault .unwrittenInput s) := by
  unfold runCommand
  rcases exec_ends hi s with ⟨k, r, e, hr⟩ | e
  · rw [e]
    exact .inl ⟨k, r, rfl, hr⟩
  · rw [e]
    exact .inr rfl

end Sys2Proof.Machine
end

