-- ==== Sys2Proof/Laws/Bus.lean ====
section
/-!
SUPPORT. What a host access, an agent's move and a step can do, said once each: every later proof about steps cites these
instead of unfolding the bus.
-/

namespace Sys2Proof.Machine

/-- The offset of a register (10_state.md R21). -/
def regOffset : Reg → Nat
  | .id => 0x000
  | .cmd => 0x004
  | .status => 0x008
  | .inLen => 0x00C
  | .outLen => 0x010
  | .maxPkt => 0x014
  | .crcResult => 0x018
  | .crcExpected => 0x01C
  | .frameLen => 0x020
  | .consumed => 0x024
  | .irqEn => 0x028
  | .bufSize => 0x02C

/-- A register is found at its own offset only. -/
theorem regAt_eq_some {o : Nat} {r : Reg} (h : regAt o = some r) : o = regOffset r := by
  unfold regAt at h
  split at h <;> cases h <;> rfl

/-- What an access reaches, with the offset it came from. -/
theorem targetAt_cases {b o : Nat} {w : Width} {t : Target} (h : targetAt b o w = some t) :
    (∃ r, t = .reg r ∧ o = regOffset r ∧ w = .w4) ∨
      (∃ i, i < b ∧ o = 0x10000 + i ∧ ((t = .inByte i ∧ w = .w1) ∨ (t = .inWord i ∧ w = .w4 ∧ i % 4 = 0))) ∨
      (∃ i, i < b ∧ o = 0x20000 + i ∧ ((t = .outByte i ∧ w = .w1) ∨ (t = .outWord i ∧ w = .w4 ∧ i % 4 = 0))) := by
  unfold targetAt at h
  split at h
  · split at h
    · rename_i hw
      obtain ⟨r, hr, rfl⟩ := Option.map_eq_some_iff.1 h
      exact .inl ⟨r, rfl, regAt_eq_some hr, hw⟩
    · cases h
  split at h
  · cases h
  split at h
  · split at h
    · refine .inr (.inl ⟨o - 0x10000, ‹_›, by omega, ?_⟩)
      unfold windowTarget at h
      cases w with
      | w1 =>
        cases h
        exact .inl ⟨rfl, rfl⟩
      | w2 => cases h
      | w4 =>
        simp only at h
        split at h
        · cases h
          exact .inr ⟨rfl, rfl, ‹_›⟩
        · cases h
    · cases h
  split at h
  · split at h
    · refine .inr (.inr ⟨o - 0x20000, ‹_›, by omega, ?_⟩)
      unfold windowTarget at h
      cases w with
      | w1 =>
        cases h
        exact .inl ⟨rfl, rfl⟩
      | w2 => cases h
      | w4 =>
        simp only at h
        split at h
        · cases h
          exact .inr ⟨rfl, rfl, ‹_›⟩
        · cases h
    · cases h
  · cases h

/-- A read answers, and changes nothing but the response and the draws. -/
theorem respondRead_eq (d : Datum) (s : State) :
    ∃ x n, respondRead d s = { s with env := { s.env with resp := some (.okayRead x), draws := n } } := by
  unfold respondRead
  split
  · exact ⟨_, s.env.draws, rfl⟩
  · exact ⟨_, s.env.draws + 1, rfl⟩

/-- A target that R69 guards comes from a mapped offset, an allowed width and a guarded write, as the claims name them. -/
theorem guarded_of_refused {b o : Nat} {w : Width} {t : Target} {v : Word} (ht : targetAt b o w = some t)
    (hr : refusedWhileBusy t v = true) : mappedOffset b o ∧ widthAllowed o w ∧ guardedWrite o v := by
  have inWindow : ∀ {i w t}, t = .inByte i ∨ t = .inWord i → targetAt b (0x10000 + i) w = some t → i < 0x10000 := by
    intro i w t h ht
    by_contra hn
    rw [targetAt, if_neg (by omega), if_neg (by omega), if_neg (by omega)] at ht
    split at ht
    · split at ht
      · cases w <;> rcases h with rfl | rfl <;> simp [windowTarget] at ht
      · cases ht
    · cases ht
  rcases targetAt_cases ht with ⟨r, rfl, rfl, rfl⟩ | ⟨i, hi, rfl, ⟨rfl, rfl⟩ | ⟨rfl, rfl, ha⟩⟩ |
    ⟨i, hi, rfl, ⟨rfl, rfl⟩ | ⟨rfl, rfl, ha⟩⟩
  · cases r with
    | cmd => exact ⟨.inl (by decide), .inl ⟨rfl, rfl⟩, .inr (.inr (.inr ⟨rfl, by simpa [refusedWhileBusy] using hr⟩))⟩
    | inLen => exact ⟨.inl (by decide), .inl ⟨rfl, rfl⟩, .inr (.inl rfl)⟩
    | maxPkt => exact ⟨.inl (by decide), .inl ⟨rfl, rfl⟩, .inr (.inr (.inl rfl))⟩
    | _ => simp [refusedWhileBusy] at hr
  · have := inWindow (.inl rfl) ht
    exact ⟨by omega, .inr ⟨rfl, by omega⟩, .inl (by omega)⟩
  · have := inWindow (.inr rfl) ht
    exact ⟨by omega, .inl ⟨rfl, by omega⟩, .inl (by omega)⟩
  · simp [refusedWhileBusy] at hr
  · simp [refusedWhileBusy] at hr

/-- A host read changes nothing but the response and the draws (20_memory.md R73). -/
theorem hostRead_eq (o : Nat) (w : Width) (s : State) :
    ∃ r n, hostRead o w s = { s with env := { s.env with resp := some r, draws := n } } := by
  unfold hostRead
  split
  · exact ⟨.busError, s.env.draws, rfl⟩
  · obtain ⟨x, n, h⟩ := respondRead_eq (readTarget ‹_› s) s
    exact ⟨_, n, h⟩

/-- What an accepted write to the block does. -/
inductive WriteEffect (o : Nat) (w : Width) (v : Word) (s : State) : State → Prop
  | sreset (ho : o = 0x004) (hw : w = .w4) (hd : decode v = .ok .sreset) : WriteEffect o w v s (resetBlock s)
  | accepted (ho : o = 0x004) (hw : w = .w4) (hb : s.busy = false) (i : Instr) (hi : i ≠ .sreset) (hd : decode v = .ok i) :
      WriteEffect o w v s (accept v s)
  | illegal (ho : o = 0x004) (hw : w = .w4) (hb : s.busy = false) (e : DecodeError)
      (hd : decode v = .error e) : WriteEffect o w v s (rejectIllegal s)
  | status (ho : o = 0x008) (hw : w = .w4) : WriteEffect o w v s (writeStatus v s)
  | irqEn (ho : o = 0x028) (hw : w = .w4) : WriteEffect o w v s (writeIrqEn v s)
  | inLen (ho : o = 0x00C) (hw : w = .w4) (hb : s.busy = false) (hv : v.toNat ≤ s.params.bufSize) :
      WriteEffect o w v s (writeInLen v s)
  | maxPkt (ho : o = 0x014) (hw : w = .w4) (hb : s.busy = false) (hv : v.toNat + 8 ≤ s.params.bufSize) :
      WriteEffect o w v s (writeMaxPkt v s)
  | byte (i : Nat) (ho : o = 0x10000 + i) (hw : w = .w1) (hb : s.busy = false) (hi : i < s.params.bufSize) :
      WriteEffect o w v s (storeByte i v s)
  | word (i : Nat) (ho : o = 0x10000 + i) (hw : w = .w4) (hb : s.busy = false) (hi : i < s.params.bufSize)
      (ha : i % 4 = 0) : WriteEffect o w v s (storeWord i v s)

/-- A write to CMD that is not refused (43_control.md R190). -/
theorem writeCmd_cases (v : Word) (s : State) (hb : s.busy = true → v = 0x0000000F#32) :
    ∃ u, writeCmd v s = .next u ∧ WriteEffect 0x004 .w4 v s u := by
  have hf : decode 0x0000000F#32 = .ok .sreset := by decide
  have idle : decode v ≠ .ok .sreset → s.busy = false := by
    intro hd
    by_contra hs
    rw [hb (by simpa using hs)] at hd
    exact hd hf
  have ok : ∀ i, i ≠ .sreset → decode v = .ok i → s.busy = false := by
    intro i hi hd
    exact idle (by simpa [hd] using hi)
  unfold writeCmd
  cases hd : decode v with
  | error e => exact ⟨_, rfl, .illegal rfl rfl (idle (by simp [hd])) e hd⟩
  | ok i =>
    cases i with
    | sreset => exact ⟨_, rfl, .sreset rfl rfl hd⟩
    | crc => exact ⟨_, rfl, .accepted rfl rfl (ok _ (by simp) hd) _ (by simp) hd⟩
    | append => exact ⟨_, rfl, .accepted rfl rfl (ok _ (by simp) hd) _ (by simp) hd⟩
    | verify => exact ⟨_, rfl, .accepted rfl rfl (ok _ (by simp) hd) _ (by simp) hd⟩
    | fenc => exact ⟨_, rfl, .accepted rfl rfl (ok _ (by simp) hd) _ (by simp) hd⟩
    | recv => exact ⟨_, rfl, .accepted rfl rfl (ok _ (by simp) hd) _ (by simp) hd⟩
    | recvEos => exact ⟨_, rfl, .accepted rfl rfl (ok _ (by simp) hd) _ (by simp) hd⟩
    | send => exact ⟨_, rfl, .accepted rfl rfl (ok _ (by simp) hd) _ (by simp) hd⟩

/-- The three ends of a write: the error that changes nothing, the refusal that sets ACCERR (R69), the accepted write (R70). -/
inductive WriteEnd (o : Nat) (w : Width) (v : Word) (s : State) : State → Prop
  | error : WriteEnd o w v s (busError s)
  | refused (hb : s.busy = true) (hg : mappedOffset s.params.bufSize o ∧ widthAllowed o w ∧ guardedWrite o v) :
    WriteEnd o w v s (busError (setAccErr s))
  | done (u : State) (h : WriteEffect o w v s u) : WriteEnd o w v s (respond .okayWrite u)

theorem writeTarget_cases {o : Nat} {w : Width} {t : Target} (v : Word) (s : State)
    (ht : targetAt s.params.bufSize o w = some t) :
    ∃ u, writeTarget t v s = .next u ∧ WriteEnd o w v s u := by
  unfold writeTarget
  split
  · exact ⟨_, rfl, .error⟩
  rename_i hwr
  split
  · rename_i hr
    simp only [Bool.and_eq_true] at hr
    exact ⟨_, rfl, .refused hr.1 (guarded_of_refused ht hr.2)⟩
  rename_i hr
  split
  · exact ⟨_, rfl, .error⟩
  rename_i hv
  have free : ∀ {b : Bool}, refusedWhileBusy t v = true → s.busy = b → b = false := by
    intro b h1 h2
    cases b
    · rfl
    · simp [h1, h2] at hr
  rcases targetAt_cases ht with ⟨r, rfl, rfl, rfl⟩ | ⟨i, hi, rfl, h⟩ | ⟨i, hi, rfl, h⟩
  · cases r with
    | cmd =>
      have hb : s.busy = true → v = 0x0000000F#32 := by
        intro h
        by_contra hne
        simp [refusedWhileBusy, h, hne] at hr
      obtain ⟨u, hu, he⟩ := writeCmd_cases v s hb
      exact ⟨_, by simp [performWrite, hu, okayWrite], .done u he⟩
    | status => exact ⟨_, rfl, .done _ (.status rfl rfl)⟩
    | irqEn => exact ⟨_, rfl, .done _ (.irqEn rfl rfl)⟩
    | inLen => exact ⟨_, rfl, .done _ (.inLen rfl rfl (free rfl rfl) (by simpa [valueLegal] using hv))⟩
    | maxPkt => exact ⟨_, rfl, .done _ (.maxPkt rfl rfl (free rfl rfl) (by simpa [valueLegal] using hv))⟩
    | id => simp [writable] at hwr
    | outLen => simp [writable] at hwr
    | crcResult => simp [writable] at hwr
    | crcExpected => simp [writable] at hwr
    | frameLen => simp [writable] at hwr
    | consumed => simp [writable] at hwr
    | bufSize => simp [writable] at hwr
  · rcases h with ⟨rfl, rfl⟩ | ⟨rfl, rfl, ha⟩
    · exact ⟨_, rfl, .done _ (.byte i rfl rfl (free rfl rfl) hi)⟩
    · exact ⟨_, rfl, .done _ (.word i rfl rfl (free rfl rfl) hi ha)⟩
  · rcases h with ⟨rfl, rfl⟩ | ⟨rfl, rfl, ha⟩ <;> simp [writable] at hwr

/-- A host write always answers, and does one of three things (R70). -/
theorem hostWrite_cases (o : Nat) (w : Width) (v : Word) (s : State) :
    ∃ u, hostWrite o w v s = .next u ∧ WriteEnd o w v s u := by
  unfold hostWrite
  split
  · exact ⟨_, rfl, .error⟩
  · exact writeTarget_cases v s ‹_›

/-- What an access of the host can do to the block. -/
inductive AccessEnd (a : Access) (s : State) : State → Prop
  | outside : AccessEnd a s (noResponse s)
  | read (r : Response) (n : Nat) : AccessEnd a s { s with env := { s.env with resp := some r, draws := n } }
  | write (o : Nat) (w : Width) (v : Word) (u : State) (ha : a = .write (s.params.base + o) w v)
      (h : WriteEnd o w v s u) : AccessEnd a s u

/-- The offset that an address inside the aperture stands for. -/
theorem apertureOffset_eq_some {p : Params} {addr o : Nat} (h : apertureOffset p addr = some o) :
    addr = p.base + o ∧ o < Config.apertureSize := by
  unfold apertureOffset at h
  split at h
  · cases h
    omega
  · cases h

/-- A host access always answers. -/
theorem hostAccess_cases (a : Access) (s : State) : ∃ u, hostAccess a s = .next u ∧ AccessEnd a s u := by
  cases a with
  | read addr w =>
    cases h : apertureOffset s.params addr with
    | none => exact ⟨_, by simp only [hostAccess, h], .outside⟩
    | some o =>
      obtain ⟨r, n, hr⟩ := hostRead_eq o w s
      exact ⟨_, by simp only [hostAccess, h, hr], .read r n⟩
  | write addr w v =>
    cases h : apertureOffset s.params addr with
    | none => exact ⟨_, by simp only [hostAccess, h], .outside⟩
    | some o =>
      obtain ⟨u, hu, he⟩ := hostWrite_cases o w v s
      obtain ⟨rfl, -⟩ := apertureOffset_eq_some h
      exact ⟨u, by simp only [hostAccess, h, hu], .write o w v u rfl he⟩

/-- The host's move: nothing, when its program is over, or one access. -/
theorem hostMove_cases (s : State) :
    (s.env.program = [] ∧ hostMove s = .next s) ∨
      ∃ l rest u p, s.env.program = l :: rest ∧ AccessEnd (lineAccess l.op) s u ∧ hostMove s = .next (setProgram p u) := by
  unfold hostMove
  cases hp : s.env.program with
  | nil => exact .inl ⟨rfl, rfl⟩
  | cons l rest =>
    obtain ⟨u, hu, he⟩ := hostAccess_cases (lineAccess l.op) s
    simp only [hu]
    exact .inr ⟨l, rest, u, _, rfl, he, rfl⟩

/-- The engine's move: nothing when BUSY = 0; else one completion, the fault mark, or a refusal of a PEND that is no word of
R192's case list. -/
inductive EngineEnd (s : State) : Result → Prop
  | idle (hb : s.busy = false) : EngineEnd s (.next s)
  | completion (c : Word) (i : Instr) (k : Cause) (r : Results) (hb : s.busy = true) (hp : s.pend = some c)
      (hd : decode c = .ok i) (hi : i ≠ .sreset) (hr : r.Fits s) : EngineEnd s (.next (complete k r s))
  | marked (hb : s.busy = true) : EngineEnd s (.next (markFault .unwrittenInput s))
  | stuck (hb : s.busy = true) (h : ∀ c, s.pend = some c → ∀ i, decode c = .ok i → i = .sreset) :
      EngineEnd s (.refused .pendNotRunnable)

theorem runPend_eq {c : Word} {i : Instr} (s : State) (hd : decode c = .ok i) (hi : i ≠ .sreset) :
    runPend c s = runCommand i s := by
  unfold runPend
  rw [hd]
  cases i <;> first | rfl | exact absurd rfl hi

theorem engineMove_cases (s : State) : EngineEnd s (engineMove s) := by
  unfold engineMove
  cases hb : s.busy with
  | false => exact .idle hb
  | true =>
    simp only [if_true]
    cases hp : s.pend with
    | none => exact .stuck hb (by simp [hp])
    | some c =>
      simp only
      cases hd : decode c with
      | error e =>
        have : runPend c s = .refused .pendNotRunnable := by simp [runPend, hd]
        rw [this]
        exact .stuck hb (by simp [hp, hd])
      | ok i =>
        by_cases hi : i = .sreset
        · have : runPend c s = .refused .pendNotRunnable := by simp [runPend, hd, hi]
          rw [this]
          exact .stuck hb (by simp [hp, hd, hi])
        · rw [runPend_eq s hd hi]
          rcases runCommand_cases hi s with ⟨k, r, e, hr⟩ | e
          · rw [e]
            exact .completion c i k r hb hp hd hi hr
          · rw [e]
            exact .marked hb

end Sys2Proof.Machine
end

