-- ==== Sys2Proof/Laws/PerInstr.lean ====
section
/-!
SUPPORT. One statement about every command as syntax: its word is a legal one (30_encoding.md R104), and the EOS bit is set
in the word of RECV.EOS alone (R102).
-/

namespace Sys2Proof.Laws.LegalEncoding

/-- The word of a command is legal, and its EOS bit says whether it is RECV.EOS. -/
def Statement (i : Instr) : Prop :=
  i.wf = true ∧ legalWord (encode i) = true ∧ (eosField (encode i) = true ↔ i = .recvEos)

theorem crc : Statement .crc := by unfold Statement; decide
theorem append : Statement .append := by unfold Statement; decide
theorem verify : Statement .verify := by unfold Statement; decide
theorem fenc : Statement .fenc := by unfold Statement; decide
theorem recv : Statement .recv := by unfold Statement; decide
theorem recvEos : Statement .recvEos := by unfold Statement; decide
theorem send : Statement .send := by unfold Statement; decide
theorem sreset : Statement .sreset := by unfold Statement; decide

end Sys2Proof.Laws.LegalEncoding
end

