-- ==== Sys2Proof/Laws/Step.lean ====
section
/-!
SUPPORT. What a step can do, said once: every whole-machine claim is a case split over `StepEnd`.
-/

namespace Sys2Proof.Machine

/-- A marked state has no further step. -/
theorem step_of_marked {s : State} {f : Fault} (h : s.faulted = some f) : step s = .fault f := by
  simp [step, stepMachine, h]

/-- A state without a fault mark steps by its mover. -/
theorem step_of_unmarked {s : State} (h : s.faulted = none) : step s = agentMove s.mover s.popped := by
  simp only [step, stepMachine, h, interleave, State.mover]
  cases hs : s.env.schedule with
  | cons a rest =>
    have : popAgent rest s = s.popped := by simp [popAgent, State.popped, hs]
    simp [this]
  | nil =>
    have : s.popped = s := by
      unfold State.popped
      rw [hs, List.tail_nil, ← hs]
    rw [this]
    cases s.busy <;> rfl

@[simp] theorem popped_busy (s : State) : s.popped.busy = s.busy := rfl
@[simp] theorem popped_done (s : State) : s.popped.done = s.done := rfl
@[simp] theorem popped_accerr (s : State) : s.popped.accerr = s.accerr := rfl
@[simp] theorem popped_faulted (s : State) : s.popped.faulted = s.faulted := rfl
@[simp] theorem popped_pend (s : State) : s.popped.pend = s.pend := rfl
@[simp] theorem popped_params (s : State) : s.popped.params = s.params := rfl
@[simp] theorem popped_program (s : State) : s.popped.env.program = s.env.program := rfl
@[simp] theorem popped_schedule (s : State) : s.popped.env.schedule = s.env.schedule.tail := rfl

/-- The ends of a step that answers a next state. -/
inductive StepEnd (s : State) : State → Prop
  /-- The host's program is over, or the engine was not enabled. -/
  | idle : StepEnd s s.popped
  /-- The host made an access. -/
  | host (l : Line) (rest : List Line) (u : State) (p : List Line) (hm : s.mover = .host) (hp : s.env.program = l :: rest)
      (ha : AccessEnd (lineAccess l.op) s.popped u) : StepEnd s (setProgram p u)
  /-- The engine completed the latched command. -/
  | completion (c : Word) (i : Instr) (k : Cause) (r : Results) (hm : s.mover = .engine) (hb : s.busy = true)
      (hp : s.pend = some c) (hd : decode c = .ok i) (hi : i ≠ .sreset) (hr : r.Fits s) : StepEnd s (complete k r s.popped)
  /-- The engine met an unwritten input byte. -/
  | marked (hm : s.mover = .engine) (hb : s.busy = true) : StepEnd s (markFault .unwrittenInput s.popped)
  /-- The reset source moved. -/
  | reset (hm : s.mover = .resetSource) : StepEnd s (resetBlock s.popped)

/-- Everything that a step can do. -/
theorem step_next {s t : State} (h : step s = .next t) : s.faulted = none ∧ StepEnd s t := by
  cases hf : s.faulted with
  | some f =>
    rw [step_of_marked hf] at h
    cases h
  | none =>
    refine ⟨rfl, ?_⟩
    rw [step_of_unmarked hf] at h
    cases hm : s.mover with
    | resetSource =>
      rw [hm] at h
      cases h
      exact .reset hm
    | host =>
      rw [hm] at h
      change hostMove s.popped = _ at h
      rcases hostMove_cases s.popped with ⟨-, e⟩ | ⟨l, rest, u, p, hp, he, e⟩
      · rw [e] at h
        cases h
        exact .idle
      · rw [e] at h
        cases h
        exact .host l rest u p hm hp he
    | engine =>
      rw [hm] at h
      change engineMove s.popped = _ at h
      have he := engineMove_cases s.popped
      rw [h] at he
      cases he with
      | idle hb => exact .idle
      | completion c i k r hb hp hd hi hr => exact .completion c i k r hm hb hp hd hi hr
      | marked hb => exact .marked hm hb

/-- The access that the host's step makes, as the claims name it. -/
theorem nextAccess_of_host {s : State} {l : Line} {rest : List Line} (hm : s.mover = .host) (hp : s.env.program = l :: rest) :
    s.nextAccess = some (lineAccess l.op) := by
  simp [State.nextAccess, hm, hp]

end Sys2Proof.Machine
end

