-- ==== Sys2Proof/Tests/Slice0.lean ====
section
/-!
SUPPORT. Tests of the model against the vectors of 95_test_vectors.md, and for every statement with hypotheses a state and
operands that meet them. Expected values are the spec's (the vector is named beside each), never the model's own answers.
-/

namespace Sys2Proof.Tests

open Sys2Proof.Machine

/-! ## Helpers -/

/-- The cells of IN that hold `bs` from index `i` on. -/
def cells : Nat → Bytes → Memory
  | _, [] => []
  | i, b :: bs => (i, b) :: cells (i + 1) bs

/-- The start state of the vectors: reset, with `bs` in IN and IN_LEN its length. -/
def loaded (bs : Bytes) : State := { State.reset with inBuf := cells 0 bs, inLen := bs.length }

/-- A start state of which only IN_LEN matters: no byte of IN is read. -/
def sized (n : Nat) : State := { State.reset with inLen := n }

/-- `s` after the acceptance of the command word `c` (R191). -/
def running (c : Word) (s : State) : State := { s with pend := some c, busy := true, done := false }

/-- `s` with one host access to make, and the host's turn to move. -/
def hostDoes (op : HostOp) (s : State) : State :=
  { s with env := { s.env with program := [{ op := op, marked := false }], schedule := [.host] } }

/-- `s` with the engine's turn to move. -/
def engineTurn (s : State) : State := { s with env := { s.env with schedule := [.engine] } }

/-- The state of a result that has one. -/
def stateOf : Result → Option State
  | .next t => some t
  | .fault _ => none
  | .refused _ => none

/-- STATUS after a result, `none` where there is no next state. -/
def statusOf (r : Result) : Option Word := (stateOf r).map statusWord

/-- OUT after a result. -/
def outOf (r : Result) : Option Bytes := (stateOf r).map (·.outSeq)

/-- CRC_RESULT, CRC_EXPECTED, FRAME_LEN and CONSUMED after a result. -/
def regsOf (r : Result) : Option (Word × Word × Word × Nat) :=
  (stateOf r).map fun t => (t.crcRes, t.crcExp, t.frameLen, t.consumed)

/-- The response after a result. -/
def respOf (r : Result) : Option Response := (stateOf r).bind (·.env.resp)

/-- The fault of a result that has one. -/
def faultOf : Result → Option Fault
  | .next _ => none
  | .fault f => some f
  | .refused _ => none

/-- `01 02 03` with its trailer (V20). -/
def wireUnit : Bytes := [0x01#8, 0x02#8, 0x03#8, 0x55#8, 0xBC#8, 0x80#8, 0x1D#8]

/-- The Frame of `wireUnit` (V20). -/
def baseFrame : Bytes := [0x00#8, 0x00#8, 0x00#8, 0x07#8] ++ wireUnit

/-- ascii("123456789") (V1). -/
def digits : Bytes := [0x31#8, 0x32#8, 0x33#8, 0x34#8, 0x35#8, 0x36#8, 0x37#8, 0x38#8, 0x39#8]

/-- ascii("abc") (V8). -/
def abc : Bytes := [0x61#8, 0x62#8, 0x63#8]

/-! ## Decoding: each command's word written out field by field, reserved 31:9, EOS, reserved 7:4, OP (R100 to R103) -/

theorem test_decode_crc : decode (0#23 ++ 0#1 ++ 0#4 ++ 0b0001#4) = .ok .crc := rfl

theorem test_decode_append : decode (0#23 ++ 0#1 ++ 0#4 ++ 0b0010#4) = .ok .append := rfl

theorem test_decode_verify : decode (0#23 ++ 0#1 ++ 0#4 ++ 0b0011#4) = .ok .verify := rfl

theorem test_decode_fenc : decode (0#23 ++ 0#1 ++ 0#4 ++ 0b0100#4) = .ok .fenc := rfl

theorem test_decode_recv : decode (0#23 ++ 0#1 ++ 0#4 ++ 0b0101#4) = .ok .recv := rfl

theorem test_decode_recvEos : decode (0#23 ++ 1#1 ++ 0#4 ++ 0b0101#4) = .ok .recvEos := rfl

theorem test_decode_send : decode (0#23 ++ 0#1 ++ 0#4 ++ 0b0110#4) = .ok .send := rfl

theorem test_decode_sreset : decode (0#23 ++ 0#1 ++ 0#4 ++ 0b1111#4) = .ok .sreset := rfl

/-- The ten illegal words of V71. -/
theorem test_decode_illegal :
    [0x00000000, 0x00000007, 0x0000000E, 0x00000101, 0x00000106, 0x00000015, 0x0000001F, 0x0000010F, 0x80000001,
      0xFFFFFFFF].all (fun w => decodeTableWord 32 w == none) = true := by decide

/-! ## WellFormed: a term that each check refuses -/

theorem test_wf_all : [Instr.crc, .append, .verify, .fenc, .recv, .recvEos, .send, .sreset].all Instr.wf = true := by decide

/-- A reserved bit of 31:9 set: the lowest and the highest. -/
theorem test_wf_reserved_high : legalWord 0x00000201#32 = false ∧ legalWord 0x80000001#32 = false := by decide

/-- A reserved bit of 7:4 set: the lowest and the highest. -/
theorem test_wf_reserved_low : legalWord 0x00000011#32 = false ∧ legalWord 0x00000081#32 = false := by decide

/-- EOS with a command other than RECV, SRESET's OP included. -/
theorem test_wf_eos : legalWord 0x00000101#32 = false ∧ legalWord 0x0000010F#32 = false := by decide

/-- The reserved OP values at the ends of their ranges. -/
theorem test_wf_op : legalWord 0x00000000#32 = false ∧ legalWord 0x00000007#32 = false ∧
    legalWord 0x0000000E#32 = false := by decide

/-! ## The functions -/

/-- V2 to V6: CRC-32 of the empty sequence and of short ones. -/
theorem test_crc32_short :
    crc32 [] = 0x00000000#32 ∧ crc32 [0x00#8] = 0xD202EF8D#32 ∧ crc32 [0xFF#8] = 0xFF000000#32 ∧
    crc32 [0x01#8, 0x02#8, 0x03#8] = 0x55BC801D#32 ∧ crc32 [0x01#8] = 0xA505DF1B#32 := by decide +kernel

/-- V15: the table of R122. -/
theorem test_crcTable :
    crcTable 0#8 = 0x00000000#32 ∧ crcTable 1#8 = 0x77073096#32 ∧ crcTable 2#8 = 0xEE0E612C#32 ∧
    crcTable 128#8 = 0xEDB88320#32 ∧ crcTable 255#8 = 0x2D02EF8D#32 := by decide

/-! ## The commands -/

/-- V1. -/
theorem test_crc_check_value :
    statusOf (exec .crc (loaded digits)) = some 0x00000006#32 ∧
    regsOf (exec .crc (loaded digits)) = some (0xCBF43926#32, 0#32, 0#32, 0) := by decide +kernel

/-- V16: an unwritten operand byte is fault(UnwrittenInput). -/
theorem test_crc_unwritten : faultOf (exec .crc (sized 4)) = some .unwrittenInput := by decide

/-- V30. -/
theorem test_append :
    statusOf (exec .append (loaded [0x01#8, 0x02#8, 0x03#8])) = some 0x00000006#32 ∧
    outOf (exec .append (loaded [0x01#8, 0x02#8, 0x03#8])) = some wireUnit := by decide +kernel

/-- V33b: one byte too many; IN is not read. -/
theorem test_append_capacity :
    statusOf (exec .append (sized 8197)) = some 0x00000802#32 ∧ outOf (exec .append (sized 8197)) = some [] := by
  decide

/-- V38: a payload bit flipped. -/
theorem test_verify_corrupt :
    statusOf (exec .verify (loaded [0x00#8, 0x02#8, 0x03#8, 0x55#8, 0xBC#8, 0x80#8, 0x1D#8])) = some 0x00000102#32 ∧
    outOf (exec .verify (loaded [0x00#8, 0x02#8, 0x03#8, 0x55#8, 0xBC#8, 0x80#8, 0x1D#8])) =
      some [0x00#8, 0x02#8, 0x03#8] ∧
    regsOf (exec .verify (loaded [0x00#8, 0x02#8, 0x03#8, 0x55#8, 0xBC#8, 0x80#8, 0x1D#8])) =
      some (0x547EEA2A#32, 0x55BC801D#32, 0#32, 0) := by decide +kernel

/-- V35 at three bytes, none of them read, and V37 at four. -/
theorem test_verify_short :
    statusOf (exec .verify (sized 3)) = some 0x00000202#32 ∧
    statusOf (exec .verify (loaded [0#8, 0#8, 0#8, 0#8])) = some 0x00000006#32 := by decide

/-- V41. -/
theorem test_fenc :
    outOf (exec .fenc (loaded wireUnit)) = some baseFrame ∧
    regsOf (exec .fenc (loaded wireUnit)) = some (0#32, 0#32, 7#32, 0) := by decide

/-- V44. -/
theorem test_fenc_capacity : statusOf (exec .fenc (sized 8197)) = some 0x00000802#32 := by decide

/-- V46: the bytes after the Frame are not consumed. -/
theorem test_recv :
    statusOf (exec .recv (loaded (baseFrame ++ [0#8, 0#8, 0#8]))) = some 0x00000006#32 ∧
    outOf (exec .recv (loaded (baseFrame ++ [0#8, 0#8, 0#8]))) = some [0x01#8, 0x02#8, 0x03#8] ∧
    regsOf (exec .recv (loaded (baseFrame ++ [0#8, 0#8, 0#8]))) = some (0x55BC801D#32, 0x55BC801D#32, 7#32, 11) := by
  decide +kernel

/-- V50a and V50b: the bound MAX_PKT + 4. -/
theorem test_recv_bound :
    statusOf (exec .recv (loaded [0x00#8, 0x00#8, 0x20#8, 0x05#8])) = some 0x00000612#32 ∧
    statusOf (exec .recv (loaded [0x00#8, 0x00#8, 0x20#8, 0x04#8])) = some 0x00000702#32 := by decide

/-- V49b: the stream ends inside a body. -/
theorem test_recvEos_body :
    statusOf (exec .recvEos (loaded [0#8, 0#8, 0#8, 7#8, 1#8, 2#8])) = some 0x00000512#32 ∧
    regsOf (exec .recvEos (loaded [0#8, 0#8, 0#8, 7#8, 1#8, 2#8])) = some (0#32, 0#32, 7#32, 0) := by decide

/-- V51: the largest prefix. -/
theorem test_recvEos_too_long :
    statusOf (exec .recvEos (loaded [0xFF#8, 0xFF#8, 0xFF#8, 0xFF#8])) = some 0x00000612#32 ∧
    regsOf (exec .recvEos (loaded [0xFF#8, 0xFF#8, 0xFF#8, 0xFF#8])) = some (0#32, 0#32, 0xFFFFFFFF#32, 0) := by
  decide

/-- V62c. -/
theorem test_send :
    outOf (exec .send (loaded digits)) =
      some ([0x00#8, 0x00#8, 0x00#8, 0x0D#8] ++ digits ++ [0xCB#8, 0xF4#8, 0x39#8, 0x26#8]) ∧
    regsOf (exec .send (loaded digits)) = some (0xCBF43926#32, 0#32, 13#32, 0) := by decide +kernel

/-- V61. -/
theorem test_send_oversized :
    statusOf (exec .send (sized 8193)) = some 0x00000302#32 ∧ outOf (exec .send (sized 8193)) = some [] := by
  decide

/-- V75: SRESET written to CMD while a SEND runs. -/
theorem test_sreset_while_busy :
    stateOf (hostWrite 0x004 .w4 0x0000000F#32
      (running 0x00000006#32 { loaded [1#8, 2#8, 3#8, 4#8] with maxPkt := 100, doneIE := true })) =
    some { State.reset with env := { State.reset.env with resp := some .okayWrite } } := by decide

/-! ## The bus -/

/-- V70: the registers after reset. -/
theorem test_reset_reads :
    [(0x000, 0x4C554E31#32), (0x004, 0#32), (0x008, 0#32), (0x00C, 0#32), (0x010, 0#32), (0x014, 0x00002000#32),
      (0x018, 0#32), (0x01C, 0#32), (0x020, 0#32), (0x024, 0#32), (0x028, 0#32), (0x02C, 0x00002008#32)].all
      (fun r => (hostRead r.1 .w4 State.reset).env.resp == some (.okayRead r.2)) = true := by decide

/-- V71: an illegal word after a completed CRC leaves the results. -/
theorem test_illegal_word :
    statusOf (hostWrite 0x004 .w4 0x0000001F#32 (complete .none { crcRes := 0x352441C2#32 } (loaded abc))) =
      some 0x00000902#32 ∧
    regsOf (hostWrite 0x004 .w4 0x0000001F#32 (complete .none { crcRes := 0x352441C2#32 } (loaded abc))) =
      some (0x352441C2#32, 0#32, 0#32, 0) := by decide

/-- V72: the reads that raise BusError. -/
theorem test_bus_error_reads :
    [(0x10000, Width.w2), (0x10001, .w4), (0x00030, .w4), (0x00008, .w1), (0x12008, .w1), (0x30000, .w4)].all
      (fun r => (hostRead r.1 r.2 State.reset).env.resp == some .busError) = true := by decide

/-- V72: the writes that raise BusError, and the two boundary values that are accepted. -/
theorem test_bus_error_writes :
    [(0x00008, Width.w2, 0#32), (0x00000, .w4, 1#32), (0x20000, .w1, 1#32), (0x0000C, .w4, 8201#32),
      (0x00014, .w4, 8193#32)].all
      (fun r => respOf (hostWrite r.1 r.2.1 r.2.2 State.reset) == some .busError) = true ∧
    respOf (hostWrite 0x0000C .w4 8200#32 State.reset) = some .okayWrite ∧
    respOf (hostWrite 0x00014 .w4 8192#32 State.reset) = some .okayWrite := by decide

/-- V73: writes refused while BUSY = 1, and what a read of STATUS shows in its exact bits. -/
theorem test_refused_while_busy :
    [(0x10000, Width.w1, 0#32), (0x0000C, .w4, 1#32), (0x00014, .w4, 1#32), (0x00004, .w4, 2#32), (0x00004, .w4, 7#32),
      (0x00004, .w4, 0x1F#32)].all
      (fun r => stateOf (hostWrite r.1 r.2.1 r.2.2 (running 1#32 (loaded abc))) ==
        some { running 1#32 (loaded abc) with accerr := true, env := { State.reset.env with resp := some .busError } }) =
      true := by decide

/-- V74, step 5: all ones written to STATUS after the completion clear DONE and nothing else. -/
theorem test_status_w1c :
    statusOf (hostWrite 0x008 .w4 0xFFFFFFFF#32 (complete .none {} (loaded abc))) = some 0x00000004#32 ∧
    statusOf (hostWrite 0x008 .w4 0x00000000#32 (complete .none {} (loaded abc))) = some 0x00000006#32 := by
  decide

/-- V74, step 1: IRQ_EN takes a write while BUSY = 1, and `irq` follows. -/
theorem test_irqEn_while_busy :
    (stateOf (hostWrite 0x028 .w4 3#32 { running 1#32 (loaded abc) with accerr := true })).map irq = some true := by
  decide

/-- V76: byte lanes. -/
theorem test_byte_lanes :
    (stateOf (hostWrite 0x10000 .w4 0x11223344#32 State.reset)).map (·.inBuf) =
      some (cells 0 [0x44#8, 0x33#8, 0x22#8, 0x11#8]) ∧
    (hostRead 0x10001 .w1 (loaded [0x44#8, 0x33#8, 0x22#8, 0x11#8])).env.resp = some (.okayRead 0x00000033#32) ∧
    (hostRead 0x20000 .w4 (complete .none { outSeq := baseFrame } State.reset)).env.resp =
      some (.okayRead 0x07000000#32) := by decide

/-! ## A placed word runs in the very next step (from reset: V16, V31, V35, V42, V47a, V47b, V62a's bytes, V70, V71) -/

theorem test_step_crc : statusOf (step (State.reset.withFetchWord 32 0x1)) = some 0x00000006#32 := by decide

theorem test_step_append : outOf (step (State.reset.withFetchWord 32 0x2)) = some [0#8, 0#8, 0#8, 0#8] := by decide

theorem test_step_verify : statusOf (step (State.reset.withFetchWord 32 0x3)) = some 0x00000202#32 := by decide

theorem test_step_fenc : outOf (step (State.reset.withFetchWord 32 0x4)) = some [0#8, 0#8, 0#8, 0#8] := by decide

theorem test_step_recv : statusOf (step (State.reset.withFetchWord 32 0x5)) = some 0x00000702#32 := by decide

theorem test_step_recvEos : statusOf (step (State.reset.withFetchWord 32 0x105)) = some 0x00000412#32 := by decide

theorem test_step_send :
    outOf (step (State.reset.withFetchWord 32 0x6)) = some [0#8, 0#8, 0#8, 4#8, 0#8, 0#8, 0#8, 0#8] := by decide

theorem test_step_sreset :
    (stateOf (step ({ State.reset with maxPkt := 5, inLen := 4 }.withFetchWord 32 0xF))).map (fun t => (t.maxPkt, t.inLen)) =
      some (8192, 0) := by decide

theorem test_step_illegal : statusOf (step (State.reset.withFetchWord 32 0x7)) = some 0x00000902#32 := by decide

/-! ## Witnesses: for every statement with hypotheses, a state and operands that meet all of them, and one for each clause at
the ends of its range. Each is named after its statement. -/

/-- `s` with BUF_SIZE `n`: the commands' own statements hold for every value of the parameter. -/
def withBuf (n : Nat) (s : State) : State := { s with params := { s.params with bufSize := n } }

theorem witness_LegalWordsAreTheEight :
    (0x0000000F#32, Instr.sreset) ∈ [(0x00000001#32, Instr.crc), (0x00000002#32, .append), (0x00000003#32, .verify),
      (0x00000004#32, .fenc), (0x00000005#32, .recv), (0x00000105#32, .recvEos), (0x00000006#32, .send),
      (0x0000000F#32, .sreset)] := by decide

theorem witness_CrcOfDifference :
    ([1#8] : Bytes).length = ([2#8] : Bytes).length ∧ 15 < 8 * 2 ∧ 0 < 8 * ([1#8] : Bytes).length := by decide

/-- The last payload bit, the first trailer bit and the last bit of V20's Wire Unit. -/
theorem witness_SingleBitErrorsAreDetected :
    23 < 8 * (appendCRC [1#8, 2#8, 3#8]).length ∧ 23 < 8 * ([1#8, 2#8, 3#8] : Bytes).length ∧
    8 * ([1#8, 2#8, 3#8] : Bytes).length ≤ 24 ∧ 55 < 8 * (appendCRC [1#8, 2#8, 3#8]).length := by decide

theorem witness_AppendThenVerifyRoundTrips :
    (loaded [1#8, 2#8, 3#8]).inputIs [1#8, 2#8, 3#8] ∧
    (∃ t, exec .append (loaded [1#8, 2#8, 3#8]) = .next t ∧ t.cause = .none) ∧
    outOf (exec .append (loaded [1#8, 2#8, 3#8])) = some wireUnit ∧ (loaded wireUnit).inLen = wireUnit.length ∧
    (loaded wireUnit).inHolds 0 wireUnit :=
  ⟨by decide, ⟨_, rfl, rfl⟩, test_append.2, rfl, by decide⟩

/-- The longest Wire Unit that a bound of 0 admits. -/
theorem witness_FrameDecodeInvertsEncode :
    ([1#8, 2#8, 3#8, 4#8] : Bytes).length < 2 ^ 32 ∧ ([1#8, 2#8, 3#8, 4#8] : Bytes).length ≤ 0 + 4 := by decide

theorem witness_CrcCommandResult :
    (loaded abc).inputIs abc ∧ (loaded []).inputIs [] ∧ (sized 1).inLacks 0 1 := by decide

/-- Both sides of the capacity, the written and the unwritten input. -/
theorem witness_AppendCommandResult :
    (sized 8197).params.bufSize < (sized 8197).inLen + 4 ∧ (sized 8196).inLen + 4 ≤ (sized 8196).params.bufSize ∧
    (sized 8196).inLacks 0 8196 ∧
    (withBuf 7 (loaded abc)).inLen + 4 ≤ (withBuf 7 (loaded abc)).params.bufSize ∧
    (withBuf 7 (loaded abc)).inputIs abc :=
  ⟨by decide, by decide, ⟨8195, by decide, rfl⟩, by decide, by decide⟩

theorem witness_VerifyCommandResult :
    (sized 3).inLen < 4 ∧ 4 ≤ (loaded [1#8, 2#8, 3#8, 4#8]).inLen ∧
    (loaded [1#8, 2#8, 3#8, 4#8]).inputIs ([] ++ [1#8, 2#8, 3#8, 4#8]) ∧ (sized 4).inLacks 0 4 := by decide

theorem witness_FencCommandResult :
    (sized 8197).params.bufSize < (sized 8197).inLen + 4 ∧ (sized 8196).inLen + 4 ≤ (sized 8196).params.bufSize ∧
    (sized 8196).inLacks 0 8196 ∧
    (withBuf 7 (loaded abc)).inLen + 4 ≤ (withBuf 7 (loaded abc)).params.bufSize ∧
    (withBuf 7 (loaded abc)).inputIs abc :=
  ⟨by decide, by decide, ⟨8195, by decide, rfl⟩, by decide, by decide⟩

/-- The first three clauses: too short for a prefix, an unwritten prefix, a written one; and both commands. -/
theorem witness_RecvCommandResult_prefix :
    (Instr.recv, false) ∈ recvForms ∧ (Instr.recvEos, true) ∈ recvForms ∧ (sized 3).inLen < 4 ∧
    4 ≤ (sized 4).inLen ∧ (sized 4).inLacks 0 4 ∧
    4 ≤ (loaded [0#8, 0#8, 0x20#8, 5#8]).inLen ∧ (loaded [0#8, 0#8, 0x20#8, 5#8]).inHolds 0 [0#8, 0#8, 0x20#8, 5#8] := by
  decide

/-- The bound MAX_PKT + 4 from above (V50a) and from below with the body missing (V50b), and one body byte missing. -/
theorem witness_RecvCommandResult_bound :
    (loaded [0#8, 0#8, 0x20#8, 5#8]).maxPkt + 4 < (be32dec [0#8, 0#8, 0x20#8, 5#8]).toNat ∧
    (be32dec [0#8, 0#8, 0x20#8, 4#8]).toNat ≤ (loaded [0#8, 0#8, 0x20#8, 4#8]).maxPkt + 4 ∧
    (loaded [0#8, 0#8, 0x20#8, 4#8]).inLen - 4 < (be32dec [0#8, 0#8, 0x20#8, 4#8]).toNat ∧
    (loaded [0#8, 0#8, 0#8, 1#8]).inLen - 4 < (be32dec [0#8, 0#8, 0#8, 1#8]).toNat := by decide

/-- A whole body: unwritten, of three bytes (V53), and of four (V54). -/
theorem witness_RecvCommandResult_body :
    ({ loaded [0#8, 0#8, 0#8, 1#8] with inLen := 5 } : State).inLacks 4 1 ∧
    (be32dec [0#8, 0#8, 0#8, 1#8]).toNat ≤ ({ loaded [0#8, 0#8, 0#8, 1#8] with inLen := 5 } : State).inLen - 4 ∧
    ([0xAA#8, 0xBB#8, 0xCC#8] : Bytes).length = (be32dec [0#8, 0#8, 0#8, 3#8]).toNat ∧
    (loaded [0#8, 0#8, 0#8, 3#8, 0xAA#8, 0xBB#8, 0xCC#8]).inHolds 4 [0xAA#8, 0xBB#8, 0xCC#8] ∧
    (([] : Bytes) ++ [0#8, 0#8, 0#8, 0#8]).length = (be32dec [0#8, 0#8, 0#8, 4#8]).toNat ∧
    (loaded [0#8, 0#8, 0#8, 4#8, 0#8, 0#8, 0#8, 0#8]).inHolds 4 ([] ++ [0#8, 0#8, 0#8, 0#8]) := by decide

theorem witness_SendCommandResult :
    ({ loaded abc with maxPkt := 2 } : State).maxPkt < (loaded abc).inLen ∧
    (loaded abc).inLen ≤ ({ loaded abc with maxPkt := 3 } : State).maxPkt ∧
    ({ loaded abc with maxPkt := 3 } : State).inputIs abc ∧ (sized 8192).inLen ≤ (sized 8192).maxPkt ∧
    (sized 8192).inLacks 0 8192 :=
  ⟨by decide, by decide, by decide, by decide, 0, by decide, rfl⟩

theorem witness_EveryCommandEndsInOneCompletion : Instr.recvEos ≠ .sreset ∧ ∃ t, exec .recvEos State.reset = .next t :=
  ⟨by decide, _, rfl⟩

theorem witness_EngineCommandsFrame :
    Instr.append ∈ [Instr.crc, .append, .verify, .fenc, .recv, .recvEos, .send] ∧ ∃ t, exec .append (loaded abc) = .next t :=
  ⟨by decide, _, rfl⟩

/-- Each clause's commands, and SRESET among those that the clauses with `≠` cover. -/
theorem witness_UnlistedResultsAreZero :
    (∃ t, exec .crc (loaded abc) = .next t) ∧ (∃ t, exec .append (loaded abc) = .next t) ∧
    (∃ t, exec .verify (loaded wireUnit) = .next t) ∧ (∃ t, exec .fenc (loaded abc) = .next t) ∧
    ∃ t, exec .sreset (loaded abc) = .next t :=
  ⟨⟨_, rfl⟩, ⟨_, rfl⟩, ⟨_, rfl⟩, ⟨_, rfl⟩, _, rfl⟩

theorem witness_CausesAreThoseOfTheTable : Instr.send ≠ .sreset ∧ ∃ t, exec .send (sized 8193) = .next t :=
  ⟨by decide, _, rfl⟩

/-- Two states that agree on the operands and on nothing else. -/
theorem witness_CommandsReadOnlyTheirOperands :
    (loaded (abc ++ [9#8]) ≠ loaded abc) ∧ ({ loaded (abc ++ [9#8]) with inLen := 3, accerr := true } : State).inLen = 3 ∧
    (∀ j, j < (loaded abc).inLen → Memory.read (loaded (abc ++ [9#8])).inBuf j = Memory.read (loaded abc).inBuf j) ∧
    ∃ t, exec .send (loaded abc) = .next t :=
  ⟨by decide, by decide, by decide, _, rfl⟩

theorem witness_RecvIsFrameDecodeThenVerify :
    (Instr.recvEos, true) ∈ recvForms ∧ (loaded baseFrame).inputIs baseFrame := by decide

/-- V49a continued with the rest of its Frame, and the case of fewer than four bytes (V48a). -/
theorem witness_ShortReadsResume :
    (∃ t, exec .recv (loaded (baseFrame.take 6)) = .next t ∧ t.cause = .incomplete) ∧
    (loaded (baseFrame.take 6)).inputIs (baseFrame.take 6) ∧
    (loaded baseFrame).inputIs (baseFrame.take 6 ++ baseFrame.drop 6) ∧ (Instr.recv, false) ∈ recvForms ∧
    4 ≤ (baseFrame.take 6).length ∧ (∃ t, exec .recv (sized 3) = .next t ∧ t.cause = .incomplete) :=
  ⟨⟨_, rfl, by decide⟩, by decide, by decide, by decide, by decide, _, rfl, rfl⟩

theorem witness_SendThenRecvRoundTrips :
    (loaded [1#8, 2#8, 3#8]).Inv ∧ (loaded [1#8, 2#8, 3#8]).inputIs [1#8, 2#8, 3#8] ∧
    (∃ t, exec .send (loaded [1#8, 2#8, 3#8]) = .next t ∧ t.cause = .none ∧ t.outSeq = baseFrame) ∧
    (loaded baseFrame).maxPkt = (loaded [1#8, 2#8, 3#8]).maxPkt ∧ (loaded baseFrame).inLen = baseFrame.length ∧
    (loaded baseFrame).inHolds 0 baseFrame ∧ (Instr.recv, false) ∈ recvForms :=
  ⟨by decide, by decide, ⟨_, rfl, rfl, by decide +kernel⟩, rfl, rfl, by decide, by decide⟩

theorem witness_PrefixCountsTheWireUnit :
    Instr.fenc ∈ [Instr.fenc, .send] ∧ (loaded []).Inv ∧ (∃ t, exec .fenc (loaded []) = .next t ∧ t.cause = .none) ∧
    ∃ t, exec .send (loaded []) = .next t ∧ t.cause = .none :=
  ⟨by decide, by decide, ⟨_, rfl, rfl⟩, _, rfl, rfl⟩

/-- A full buffer whose prefix announces an empty Wire Unit. -/
theorem witness_FullBufferIsNeverIncomplete :
    ({ loaded [0#8, 0#8, 0#8, 0#8] with inLen := 8200 } : State).Inv ∧
    ({ loaded [0#8, 0#8, 0#8, 0#8] with inLen := 8200 } : State).inLen = State.reset.params.bufSize ∧
    ∃ t, exec .recv { loaded [0#8, 0#8, 0#8, 0#8] with inLen := 8200 } = .next t :=
  ⟨by decide, by decide, _, rfl⟩

/-- Offsets and widths on each side of the first three checks. -/
theorem witness_AccessChecksInOrder :
    State.reset.params.Admitted ∧
    ¬ (mappedOffset 8200 0x12008 ∧ widthAllowed 0x12008 .w1) ∧ ¬ (mappedOffset 8200 0x10001 ∧ widthAllowed 0x10001 .w4) ∧
    (mappedOffset 8200 0x22007 ∧ widthAllowed 0x22007 .w1) ∧ (mappedOffset 8200 0x02C ∧ widthAllowed 0x02C .w4) ∧
    ¬ writeAllowed 0x20000 ∧ ¬ writeAllowed 0x02C ∧
    (mappedOffset 8200 0x12007 ∧ widthAllowed 0x12007 .w1 ∧ writeAllowed 0x12007) :=
  ⟨by decide, by decide, by decide, by decide, by decide, by decide, by decide, by decide⟩

/-- Writes on each side of the last two checks. -/
theorem witness_AccessChecksInOrder_values :
    (running 1#32 (loaded abc)).busy = true ∧ guardedWrite 0x004 7#32 ∧ ¬ guardedWrite 0x004 0xF#32 ∧
    ¬ guardedWrite 0x028 0#32 ∧ ¬ valueInRange 8200 0x00C 8201#32 ∧ valueInRange 8200 0x00C 8200#32 ∧
    ¬ valueInRange 8200 0x014 8193#32 ∧ valueInRange 8200 0x014 8192#32 := by decide

theorem witness_ReservedOffsetsRaiseBusError :
    (0x30 ≤ 0x30 ∧ 0xFFFF < 0x10000) ∧ (0x10000 + State.reset.params.bufSize ≤ 0x12008 ∧ 0x1FFFF < 0x20000) ∧
    (0x20000 + State.reset.params.bufSize ≤ 0x22008 ∧ 0x2FFFF < 0x30000) ∧ (0x30000 ≤ 0x3FFFF ∧ 0x3FFFF < 0x40000) := by
  decide

theorem witness_OperandWritesAreRefusedWhileBusy :
    (running 1#32 (loaded abc)).params.Admitted ∧ (running 1#32 (loaded abc)).busy = true ∧
    0x12007 < 0x10000 + (running 1#32 (loaded abc)).params.bufSize ∧ 0x12004 % 4 = 0 ∧
    (0x00000007#32 : Word) ≠ 0x0000000F#32 := by decide

/-- The last byte and the last word of the window, a misaligned index, a byte that is written and one that is not. -/
theorem witness_InWindowAccess :
    8199 % 4 ≠ 0 ∧ State.reset.params.Admitted ∧ 8199 < State.reset.params.bufSize ∧ 8196 < State.reset.params.bufSize ∧ 8196 % 4 = 0 ∧
    State.reset.busy = false ∧ Memory.read (loaded abc).inBuf 2 = some 0x63#8 ∧ Memory.read (loaded abc).inBuf 3 = none := by
  decide

/-- The last byte of OUT below OUT_LEN and the first one above it. -/
theorem witness_OutWindowAccess :
    State.reset.params.Admitted ∧ 8199 < State.reset.params.bufSize ∧ 8196 % 4 = 0 ∧
    ((complete .none { outSeq := abc } State.reset).busy = false ∧
      2 < (complete .none { outSeq := abc } State.reset).outSeq.length) ∧
    ¬ (3 < (complete .none { outSeq := abc } State.reset).outSeq.length) := by decide

/-- A read that draws no free value, after a reset and while BUSY = 1; and two reads of STATUS while BUSY = 1. -/
theorem witness_ReadsHaveNoSideEffects :
    (hostRead 0x018 .w4 State.reset).env.draws = State.reset.env.draws ∧
    (hostRead 0x00C .w4 (running 1#32 (loaded abc))).env.draws = (running 1#32 (loaded abc)).env.draws ∧
    (∃ d, (hostRead 0x008 .w4 (running 1#32 (loaded abc))).env.resp = some (.okayRead d)) ∧
    ∃ e, (hostRead 0x008 .w4 (hostRead 0x018 .w4 (running 1#32 (loaded abc)))).env.resp = some (.okayRead e) :=
  ⟨rfl, rfl, ⟨_, rfl⟩, _, rfl⟩

theorem witness_RegisterReads :
    (State.reset.busy = false ∧ (running 1#32 (loaded abc)).busy = true) ∧
    (0x024, BitVec.ofNat 32 State.reset.consumed) ∈ [(0x010, BitVec.ofNat 32 State.reset.outSeq.length),
      (0x018, State.reset.crcRes), (0x01C, State.reset.crcExp), (0x020, State.reset.frameLen),
      (0x024, BitVec.ofNat 32 State.reset.consumed)] := by decide

theorem witness_StatusReads :
    State.reset.busy = false ∧ State.reset.cause = .none ∧ (rejectIllegal State.reset).cause = .illegalCmd ∧
    (running 1#32 (loaded abc)).busy = true := by decide

/-- The bounds are V72's: 8200 and 8192 are taken, one more is not. -/
theorem witness_OperandRegisterWrites :
    State.reset.params.Admitted ∧ State.reset.busy = false ∧ (8200#32 : Word).toNat ≤ State.reset.params.bufSize ∧
    ¬ (8201#32 : Word).toNat ≤ State.reset.params.bufSize ∧ (8192#32 : Word).toNat ≤ State.reset.params.bufSize - 8 ∧
    ¬ (8193#32 : Word).toNat ≤ State.reset.params.bufSize - 8 := by decide

/-- The four outcomes of the CMD write: SRESET, refused, illegal, accepted. -/
theorem witness_CommandWordWrite :
    (running 1#32 (loaded abc)).busy = true ∧ legalWord 0x00000007#32 = false ∧ legalWord 0x00000105#32 = true ∧
    legalWord 0x0000000F#32 = true := by decide

theorem witness_ApertureOffsets :
    0x3FFFF < 0x40000 ∧ 0x3FFFF = State.reset.params.base + 0x3FFFF ∧
    State.reset.params.base + 0x40000 ≤ 0x40000 ∧
    (0x3FFFF < ({ bufSize := 8200, base := 0x40000 } : Params).base) := by decide

/-- Each of the three clauses: a marked state, an idle engine, a running command that ends and one that faults. -/
theorem witness_EngineStepRunsTheDecodedCommand :
    (engineTurn (markFault .unwrittenInput State.reset)).mover = .engine ∧
    ((engineTurn State.reset).mover = .engine ∧ (engineTurn State.reset).busy = false) ∧
    ((running 1#32 (loaded abc)).mover = .engine ∧ (running 1#32 (loaded abc)).pend = some 1#32 ∧
      decode 1#32 = .ok .crc ∧ Instr.crc ≠ .sreset ∧ ∃ t, exec .crc (running 1#32 (loaded abc)).popped = .next t) ∧
    exec .crc (running 1#32 (sized 4)).popped = .fault .unwrittenInput :=
  ⟨by decide, by decide, ⟨by decide, by decide, rfl, by decide, _, rfl⟩, rfl⟩

/-- A marked state, an empty program, an access that gets ERROR, a POLL that gets data, a plain access that gets OKAY, and a POLL
outside the aperture, which gets no response. -/
theorem witness_HostStepRunsOneLine :
    ((markFault .unwrittenInput State.reset).mover = .host ∧
      (markFault .unwrittenInput State.reset).faulted = some .unwrittenInput) ∧
    (State.reset.mover = .host ∧ State.reset.env.program = []) ∧
    ((hostDoes (.access (.read 0x30 .w4)) State.reset).mover = .host ∧
      ∃ t, hostAccess (lineAccess (.access (.read 0x30 .w4))) (hostDoes (.access (.read 0x30 .w4)) State.reset).popped =
        .next t ∧ t.env.resp = some .busError) ∧
    (∃ t, hostAccess (lineAccess (.poll 8 1#32 0#32)) (hostDoes (.poll 8 1#32 0#32) State.reset).popped =
      .next t ∧ t.env.resp = some (.okayRead 0#32)) ∧
    (∃ t, hostAccess (lineAccess (.access (.write 0x00C .w4 3#32)))
      (hostDoes (.access (.write 0x00C .w4 3#32)) State.reset).popped = .next t ∧ t.env.resp = some .okayWrite) ∧
    ∃ t, hostAccess (lineAccess (.poll 0x40008 1#32 0#32)) (hostDoes (.poll 0x40008 1#32 0#32) State.reset).popped =
      .next t ∧ t.env.resp = none :=
  ⟨by decide, by decide, ⟨by decide, _, rfl, rfl⟩, ⟨_, rfl, by decide⟩, ⟨_, rfl, by decide⟩, _, rfl, rfl⟩

/-- A placed command that ends and one that faults. -/
theorem witness_PlacedCommandRunsNext :
    Instr.crc ≠ .sreset ∧
    (∃ t, exec .crc { loaded abc with pend := some (encode .crc), busy := true, done := false, faulted := none } = .next t) ∧
    exec .crc { sized 4 with pend := some (encode .crc), busy := true, done := false, faulted := none } =
      .fault .unwrittenInput :=
  ⟨by decide, ⟨_, rfl⟩, rfl⟩

theorem witness_ResetStepLeavesTheResetState :
    ({ running 1#32 (loaded abc) with env := { State.reset.env with schedule := [.resetSource] } } : State).faulted = none ∧
    ({ running 1#32 (loaded abc) with env := { State.reset.env with schedule := [.resetSource] } } : State).mover =
      .resetSource := by decide

theorem witness_EveryStepKeepsTheInvariant :
    (running 1#32 (loaded abc)).Inv ∧ ∃ t, step (running 1#32 (loaded abc)) = .next t := ⟨by decide, _, rfl⟩

theorem witness_OnlyTheFaultMarkStops :
    State.reset.Inv ∧ State.reset.faulted = none ∧ (markFault .unwrittenInput (running 1#32 (sized 4))).Inv ∧
    (markFault .unwrittenInput State.reset).faulted = some .unwrittenInput := by decide

/-- A host write that starts a command, and the engine step that ends it. -/
theorem witness_WhatChangesBusy :
    (∃ t, step (hostDoes (.access (.write 4 .w4 1#32)) (loaded abc)) = .next t ∧ (loaded abc).busy = false ∧
      t.busy = true) ∧
    ∃ t, step (running 1#32 (loaded abc)) = .next t ∧ (running 1#32 (loaded abc)).busy = true ∧ t.busy = false :=
  ⟨⟨_, rfl, rfl, rfl⟩, _, rfl, rfl, rfl⟩

/-- DONE set by a completion and by an illegal word; cleared by a write of 1 to it. -/
theorem witness_WhatChangesDone :
    (∃ t, step (running 1#32 (loaded abc)) = .next t ∧ (running 1#32 (loaded abc)).done = false ∧ t.done = true) ∧
    (∃ t, step (hostDoes (.access (.write 4 .w4 7#32)) (loaded abc)) = .next t ∧ t.done = true) ∧
    ∃ t, step (hostDoes (.access (.write 8 .w4 2#32)) (complete .none {} (loaded abc))) = .next t ∧ t.done = false :=
  ⟨⟨_, rfl, rfl, rfl⟩, ⟨_, rfl, rfl⟩, _, rfl, rfl⟩

/-- ACCERR set by a refused write; cleared by a write of 1 to it. -/
theorem witness_WhatChangesAccErr :
    (∃ t, step (hostDoes (.access (.write 0x10000 .w1 0#32)) (running 1#32 (loaded abc))) = .next t ∧
      (running 1#32 (loaded abc)).accerr = false ∧ t.accerr = true) ∧
    ∃ t, step (hostDoes (.access (.write 8 .w4 8#32)) (setAccErr State.reset)) = .next t ∧ t.accerr = false :=
  ⟨⟨_, rfl, rfl, rfl⟩, _, rfl, rfl⟩

/-- A completion that changes a result register, and an SRESET that does. -/
theorem witness_WhatChangesResults :
    (∃ t, step (running 4#32 (loaded [1#8])) = .next t ∧ t.results ≠ (running 4#32 (loaded [1#8])).results) ∧
    ∃ t, step (hostDoes (.access (.write 4 .w4 0xF#32)) (complete .none { consumed := 4 } State.reset)) = .next t ∧
      t.results ≠ (complete .none { consumed := 4 } State.reset).results :=
  ⟨⟨_, rfl, by decide⟩, _, rfl, by decide⟩

theorem witness_OperandsAreFixedWhileBusy :
    ∃ t, step (hostDoes (.access (.write 0x10000 .w1 0#32)) (running 1#32 (loaded abc))) = .next t ∧
      (running 1#32 (loaded abc)).busy = true ∧ t.busy = true := ⟨_, rfl, rfl, rfl⟩

/-- `irq` raised by a completion and by a refused write, and lowered by an acknowledgement. -/
theorem witness_WhatChangesIrq :
    (∃ t, step { running 1#32 (loaded abc) with doneIE := true } = .next t ∧
      irq { running 1#32 (loaded abc) with doneIE := true } = false ∧ irq t = true) ∧
    (∃ t, step (hostDoes (.access (.write 0x00C .w4 1#32)) { running 1#32 (loaded abc) with accerrIE := true }) = .next t ∧
      irq { running 1#32 (loaded abc) with accerrIE := true } = false ∧ irq t = true) ∧
    ∃ t, step (hostDoes (.access (.write 8 .w4 2#32)) { State.reset with done := true, doneIE := true }) = .next t ∧
      irq { State.reset with done := true, doneIE := true } = true ∧ irq t = false :=
  ⟨⟨_, rfl, by decide, by decide⟩, ⟨_, rfl, by decide, by decide⟩, _, rfl, by decide, by decide⟩

/-- A step, and a marked state with a move of each agent. -/
theorem witness_ParametersNeverChange :
    (∃ t, step (running 1#32 (loaded abc)) = .next t) ∧
    (markFault .unwrittenInput (running 1#32 (loaded abc))).faulted = some .unwrittenInput ∧
    (∃ t, agentMove .host (markFault .unwrittenInput (running 1#32 (loaded abc))) = .next t) ∧
    (∃ t, agentMove .engine (markFault .unwrittenInput (running 1#32 (loaded abc))) = .next t) ∧
    ∃ t, agentMove .resetSource (markFault .unwrittenInput (running 1#32 (loaded abc))) = .next t :=
  ⟨⟨_, rfl⟩, rfl, ⟨_, rfl⟩, ⟨_, rfl⟩, _, rfl⟩

/-- A command that ends and one that sets the fault mark. -/
theorem witness_AcceptedCommandsEnd :
    ((running 1#32 (loaded abc)).Inv ∧ (running 1#32 (loaded abc)).faulted = none ∧
      (running 1#32 (loaded abc)).busy = true) ∧
    (running 1#32 (sized 4)).Inv ∧ (running 1#32 (sized 4)).faulted = none ∧ (running 1#32 (sized 4)).busy = true := by
  decide

/-- An unmarked quiescent state with no turn left, with a turn of the engine, and with a reset still to come. -/
theorem witness_ValidEndsAreFinal :
    (loaded abc).validEnd ∧ (loaded abc).mover ≠ .resetSource ∧ (engineTurn (loaded abc)).validEnd ∧
    (engineTurn (loaded abc)).mover ≠ .resetSource ∧
    ({ loaded abc with env := { State.reset.env with schedule := [.resetSource] } } : State).validEnd ∧
    ({ loaded abc with env := { State.reset.env with schedule := [.resetSource] } } : State).mover = .resetSource := by
  decide

end Sys2Proof.Tests
end

/-! ## Command words: a word decodes to a command only as that command's word (30_encoding.md R103, R104) -/

namespace Sys2Proof

/-- A command word is its four fields side by side (R100). -/
theorem word_eq_fields (c : Word) :
    c = reservedHigh c ++ BitVec.ofBool (eosField c) ++ reservedLow c ++ opField c := by
  refine BitVec.eq_of_getLsbD_eq fun j hj => ?_
  simp only [reservedHigh, eosField, reservedLow, opField, BitVec.getLsbD_append, BitVec.getLsbD_extractLsb',
    BitVec.getLsbD_ofBool]
  by_cases h4 : j < 4
  · simp [h4]
  by_cases h8 : j < 8
  · simp [h4, show j - 4 < 4 by omega, show 4 + (j - 4) = j by omega]
  by_cases h9 : j < 9
  · obtain rfl : j = 8 := by omega
    simp
  · simp [h4, show ¬ j - 4 < 4 by omega, show ¬ j - 4 - 4 < 1 by omega, show j - 4 - 4 - 1 < 23 by omega,
      show 9 + (j - 4 - 4 - 1) = j by omega]

/-- The OP value of a command, with EOS = 0 and the reserved fields 0, makes up that command's word (R101, R103). -/
theorem encode_of_commandOfOp :
    ∀ op : BitVec 4, ∀ i ∈ commandOfOp op, 0#23 ++ BitVec.ofBool false ++ 0#4 ++ op = encode i := by
  decide

/-- Every OP value that is legal with EOS = 0 selects a command (R101, R104). -/
theorem commandOfOp_isSome : ∀ op : BitVec 4, plainOps.contains op = true → (commandOfOp op).isSome = true := by
  decide

/-- A word that decodes to a command is that command's word. -/
theorem eq_encode_of_decode {c : Word} {i : Instr} (h : decode c = .ok i) : c = encode i := by
  have hc := word_eq_fields c
  unfold decode at h
  split at h
  · cases h
  rename_i hres
  obtain ⟨hhi, hlo⟩ : reservedHigh c = 0#23 ∧ reservedLow c = 0#4 := by
    simpa only [not_or, not_not] using hres
  rw [hhi, hlo] at hc
  split at h
  · rename_i heos
    split at h
    · rename_i hop
      cases h
      rw [hc, heos, hop]
      rfl
    · cases h
  · rename_i heos
    rw [Bool.eq_false_of_not_eq_true heos] at hc
    split at h
    · rename_i j hj
      cases h
      exact hc.trans (encode_of_commandOfOp _ _ hj)
    · cases h

/-- Legality in the terms of the decoder's fields (R100, R104). -/
theorem legalWord_eq (c : Word) :
    legalWord c = ((reservedHigh c == 0#23 && reservedLow c == 0#4) &&
      ((!eosField c && plainOps.contains (opField c)) || (eosField c && opField c == 0x5#4))) := rfl

/-- A legal word decodes to a command. -/
theorem decode_of_legalWord {c : Word} (h : legalWord c = true) : ∃ i, decode c = .ok i := by
  simp only [legalWord_eq, Bool.and_eq_true, Bool.or_eq_true, Bool.not_eq_true', beq_iff_eq] at h
  obtain ⟨⟨hhi, hlo⟩, ⟨heos, hop⟩ | ⟨heos, hop⟩⟩ := h
  · obtain ⟨i, hi⟩ := Option.isSome_iff_exists.1 (commandOfOp_isSome _ hop)
    exact ⟨i, by simp [decode, hhi, hlo, heos, hi]⟩
  · exact ⟨.recvEos, by simp [decode, hhi, hlo, heos, hop]⟩

/-- A word that no command has is illegal. -/
theorem legalWord_of_decode_error {c : Word} {e : DecodeError} (h : decode c = .error e) : legalWord c = false := by
  by_contra hl
  obtain ⟨i, hi⟩ := decode_of_legalWord (by simpa using hl)
  rw [h] at hi
  cases hi

/-- A word of a command other than SRESET is one that the engine runs. -/
theorem runnableWord_of_decode {c : Word} {i : Instr} (h : decode c = .ok i) (hi : i ≠ .sreset) :
    Machine.runnableWord c = true := by
  rw [eq_encode_of_decode h]
  cases i with
  | sreset => exact absurd rfl hi
  | _ => decide

end Sys2Proof

/-! ## What a step can do to the block, the outside world aside -/

namespace Sys2Proof.Machine

/-- An accepted write does the same to the block whatever the schedule still holds. -/
theorem WriteEffect.of_popped {o : Nat} {w : Width} {v : Word} {s u : State} (h : WriteEffect o w v s.popped u) :
    ∃ u', WriteEffect o w v s u' ∧ u = { u' with env := u.env } := by
  cases h with
  | sreset ho hw hd => exact ⟨_, .sreset ho hw hd, rfl⟩
  | accepted ho hw hb i hi hd => exact ⟨_, .accepted ho hw hb i hi hd, rfl⟩
  | illegal ho hw hb e hd => exact ⟨_, .illegal ho hw hb e hd, rfl⟩
  | status ho hw => exact ⟨_, .status ho hw, rfl⟩
  | irqEn ho hw => exact ⟨_, .irqEn ho hw, rfl⟩
  | inLen ho hw hb hv => exact ⟨_, .inLen ho hw hb hv, rfl⟩
  | maxPkt ho hw hb hv => exact ⟨_, .maxPkt ho hw hb hv, rfl⟩
  | byte i ho hw hb hi => exact ⟨_, .byte i ho hw hb hi, rfl⟩
  | word i ho hw hb hi ha => exact ⟨_, .word i ho hw hb hi ha, rfl⟩

/-- What a step does to the block, `e` being the outside world after it: `StepEnd` with the response, the program and the
schedule put aside, and the host's access named as the claims name it. -/
inductive BlockStep (s : State) : State → Prop
  /-- Nothing: an idle turn, a read, an access outside the aperture, or a write that ends in a BusError alone. -/
  | idle (e : Env) : BlockStep s { s with env := e }
  /-- A host write that R69 refuses. -/
  | refused (e : Env) (h : s.refusedNext) (he : e.resp = some .busError) :
      BlockStep s { s with accerr := true, env := e }
  /-- A host write that the block accepts. -/
  | written (o : Nat) (w : Width) (v : Word) (u : State) (e : Env)
      (ha : s.nextAccess = some (.write (s.params.base + o) w v)) (h : WriteEffect o w v s u) :
      BlockStep s { u with env := e }
  /-- The engine completed the latched command. -/
  | completed (c : Word) (i : Instr) (k : Cause) (r : Results) (e : Env) (hm : s.mover = .engine) (hb : s.busy = true)
      (hp : s.pend = some c) (hd : decode c = .ok i) (hi : i ≠ .sreset) (hr : r.Fits s) :
      BlockStep s { complete k r s with env := e }
  /-- The engine met an unwritten input byte. -/
  | marked (e : Env) (hm : s.mover = .engine) (hb : s.busy = true) :
      BlockStep s { markFault .unwrittenInput s with env := e }
  /-- The reset source moved. -/
  | reset (e : Env) (hm : s.mover = .resetSource) : BlockStep s { resetBlock s with env := e }

/-- The host's access as a step of the block. -/
theorem blockStep_of_access {s u : State} {a : Access} (p : List Line) (hn : s.nextAccess = some a)
    (h : AccessEnd a s.popped u) : BlockStep s (setProgram p u) := by
  cases h with
  | outside => exact .idle _
  | read r n => exact .idle _
  | write o w v u ha h =>
    rw [ha] at hn
    cases h with
    | error => exact .idle _
    | refused hb hg => exact .refused _ ⟨hb, o, w, v, hn, hg⟩ rfl
    | done u h =>
      obtain ⟨u', h', e⟩ := h.of_popped
      rw [e]
      exact .written o w v u' _ hn h'

/-- Everything that a step can do to the block. -/
theorem blockStep_of_step {s t : State} (h : step s = .next t) : BlockStep s t := by
  cases (step_next h).2 with
  | idle => exact .idle _
  | host l rest u p hm hp ha => exact blockStep_of_access p (nextAccess_of_host hm hp) ha
  | completion c i k r hm hb hp hd hi hr => exact .completed c i k r _ hm hb hp hd hi hr
  | marked hm hb => exact .marked _ hm hb
  | reset hm => exact .reset _ hm

/-! ## The invariant (10_state.md R26, R27, R33, R46, R49) -/

/-- The invariant speaks of no field of the outside world. -/
theorem State.Inv.withEnv {s : State} (h : s.Inv) (e : Env) : ({ s with env := e } : State).Inv := h

/-- A completion keeps the invariant when its results fit the buffer. -/
theorem complete_inv {s : State} {k : Cause} {r : Results} (h : s.Inv) (hr : r.Fits s) : (complete k r s).Inv := by
  obtain ⟨hadm, hin, hmax, -, -, hwf, hidx, -, -, -⟩ := h
  obtain ⟨hout, hcon⟩ := hr hin hmax
  exact ⟨hadm, hin, hmax, hout, hcon, hwf, hidx, rfl, by simp, by simp⟩

/-- A reset gives the invariant whatever stood in the block, the parameters being admitted. -/
theorem resetBlock_inv {s : State} (h : s.params.Admitted) : (resetBlock s).Inv :=
  ⟨h, Nat.zero_le _, h.1, Nat.zero_le _, Nat.zero_le _, rfl, by simp, rfl, by simp, by simp⟩

/-- An accepted write keeps the invariant. -/
theorem WriteEffect.inv {o : Nat} {w : Width} {v : Word} {s u : State} (hu : WriteEffect o w v s u) (h : s.Inv) :
    u.Inv := by
  obtain ⟨hadm, hin, hmax, hout, hcon, hwf, hidx, hpend, hdone, hok⟩ := h
  cases hu with
  | sreset => exact resetBlock_inv hadm
  | accepted _ _ _ i hi hd =>
    have hpend' : (accept v s).pendOk = true := by simp [State.pendOk, runnableWord_of_decode hd hi]
    exact ⟨hadm, hin, hmax, hout, hcon, hwf, hidx, hpend', by simp, hok⟩
  | illegal _ _ hb => exact ⟨hadm, hin, hmax, hout, hcon, hwf, hidx, hpend, by simp [hb], by simp⟩
  | status =>
    exact ⟨hadm, hin, hmax, hout, hcon, hwf, hidx, hpend, fun hb => by simp [hdone hb], hok⟩
  | irqEn => exact ⟨hadm, hin, hmax, hout, hcon, hwf, hidx, hpend, hdone, hok⟩
  | inLen _ _ _ hv => exact ⟨hadm, hv, hmax, hout, hcon, hwf, hidx, hpend, hdone, hok⟩
  | maxPkt _ _ _ hv => exact ⟨hadm, hin, hv, hout, hcon, hwf, hidx, hpend, hdone, hok⟩
  | byte i _ _ _ hi =>
    have hidx' : ∀ c ∈ (storeByte i v s).inBuf, c.1 < s.params.bufSize := by
      intro c hc
      rcases Memory.mem_write hc with rfl | hc
      · exact hi
      · exact hidx c hc
    exact ⟨hadm, hin, hmax, hout, hcon, Memory.write_wf _ _ hwf, hidx', hpend, hdone, hok⟩
  | word i _ _ _ hi ha =>
    have hidx' : ∀ c ∈ (storeWord i v s).inBuf, c.1 < s.params.bufSize := by
      intro c hc
      rcases Memory.mem_writeWord hc with hc | hc
      · obtain ⟨-, -, hmod, -⟩ := hadm
        omega
      · exact hidx c hc
    exact ⟨hadm, hin, hmax, hout, hcon, Memory.writeWord_wf _ _ hwf, hidx', hpend, hdone, hok⟩

/-- Settles O44, by the kinds of step of `BlockStep`. -/
theorem everyStepKeepsTheInvariant : Obligations.EveryStepKeepsTheInvariant := by
  intro s t h hstep
  cases blockStep_of_step hstep with
  | idle e => exact h.withEnv e
  | refused => exact h
  | written o w v u e _ hu => exact (hu.inv h).withEnv e
  | completed c i k r e _ _ _ _ _ hr => exact (complete_inv h hr).withEnv e
  | marked => exact h
  | reset e => exact (resetBlock_inv h.1).withEnv e

/-- Settles O43: the default parameters are admitted ones, and reset gives every other field its value. -/
theorem resetHasTheInvariant : Obligations.ResetHasTheInvariant :=
  resetBlock_inv (s := State.reset) (by decide)

/-! ## What changes BUSY, DONE, ACCERR, the results and `irq` (10_state.md R25, R26, R28, R44, R48) -/

section CmdWrites

variable {s : State} {o : Nat} {w : Width} {v : Word} (ha : s.nextAccess = some (.write (s.params.base + o) w v))
  (ho : o = 0x004) (hw : w = .w4)
include ha ho hw

/-- The CMD write that runs SRESET abandons what runs (R240). -/
theorem resetsNext_of_sreset (hd : decode v = .ok .sreset) : s.resetsNext := by
  subst ho hw
  rw [eq_encode_of_decode hd] at ha
  exact .inr ha

/-- The CMD write that is accepted writes a word the engine runs (R191). -/
theorem writesRunnable_of_accepted {i : Instr} (hi : i ≠ .sreset) (hd : decode v = .ok i) :
    ∃ c, s.writesReg 0x004 c ∧ runnableWord c = true := by
  subst ho hw
  exact ⟨v, ha, runnableWord_of_decode hd hi⟩

end CmdWrites

/-- Settles O46, by what a step can do: only an accepted CMD write sets BUSY, only a completion or a reset clears it. -/
theorem whatChangesBusy : Obligations.WhatChangesBusy := by
  intro s t hstep
  refine ⟨fun h0 h1 => ?_, fun h1 h0 => ?_⟩
  · cases blockStep_of_step hstep with
    | written o w v u e ha hu =>
      cases hu with
      | accepted ho hw hb i hi hd =>
        subst ho hw
        exact ⟨v, ha, runnableWord_of_decode hd hi, rfl⟩
      | _ => simp [h0] at h1
    | _ => simp [h0] at h1
  · cases blockStep_of_step hstep with
    | written o w v u e ha hu =>
      cases hu with
      | sreset ho hw hd => exact .inr (resetsNext_of_sreset ha ho hw hd)
      | _ => simp [h1] at h0
    | completed c i k r e hm => exact .inl ⟨hm, rfl⟩
    | reset e hm => exact .inr (.inl hm)
    | _ => simp [h1] at h0

/-- Settles O47, by what a step can do: a completion and a rejected CMD write set DONE. -/
theorem whatChangesDone : Obligations.WhatChangesDone := by
  intro s t hstep
  refine ⟨fun h0 h1 => ?_, fun h1 h0 => ?_⟩
  · cases blockStep_of_step hstep with
    | written o w v u e ha hu =>
      cases hu with
      | illegal ho hw hb err hd =>
        subst ho hw
        exact .inr ⟨v, ha, legalWord_of_decode_error hd, hb, rfl⟩
      | _ => simp [h0] at h1
    | completed c i k r e hm hb => exact .inl ⟨hm, hb, rfl⟩
    | _ => simp [h0] at h1
  · cases blockStep_of_step hstep with
    | written o w v u e ha hu =>
      cases hu with
      | sreset ho hw hd => exact .inr (.inr (resetsNext_of_sreset ha ho hw hd))
      | accepted ho hw hb i hi hd => exact .inl (writesRunnable_of_accepted ha ho hw hi hd)
      | status ho hw =>
        subst ho hw
        exact .inr (.inl ⟨v, ha, by simpa [h1] using h0⟩)
      | _ => simp [h1] at h0
    | reset e hm => exact .inr (.inr (.inl hm))
    | _ => simp [h1] at h0

/-- Settles O48, by what a step can do: the refused write alone sets ACCERR. -/
theorem whatChangesAccErr : Obligations.WhatChangesAccErr := by
  intro s t hstep
  refine ⟨fun h0 h1 => ?_, fun h1 h0 => ?_⟩
  · cases blockStep_of_step hstep with
    | refused e h he => exact ⟨h, he⟩
    | written o w v u e ha hu => cases hu <;> simp [h0] at h1
    | _ => simp [h0] at h1
  · cases blockStep_of_step hstep with
    | written o w v u e ha hu =>
      cases hu with
      | sreset ho hw hd => exact .inr (resetsNext_of_sreset ha ho hw hd)
      | status ho hw =>
        subst ho hw
        exact .inl ⟨v, ha, by simpa [h1] using h0⟩
      | _ => simp [h1] at h0
    | reset e hm => exact .inr (.inl hm)
    | _ => simp [h1] at h0

/-- Settles O49, by what a step can do: a completion and a reset alone write the results. -/
theorem whatChangesResults : Obligations.WhatChangesResults := by
  intro s t hstep hne
  cases blockStep_of_step hstep with
  | completed c i k r e hm hb => exact .inl ⟨hm, hb, rfl, rfl⟩
  | written o w v u e ha hu =>
    cases hu with
    | sreset ho hw hd => exact .inr (resetsNext_of_sreset ha ho hw hd)
    | _ => exact absurd rfl hne
  | reset e hm => exact .inr (.inl hm)
  | _ => exact absurd rfl hne

/-- A step that changes an interrupt enable is a write to IRQ_EN, or a reset, after which `irq` is 0. -/
theorem enables_change {s t : State} (hstep : step s = .next t)
    (h : t.doneIE ≠ s.doneIE ∨ t.accerrIE ≠ s.accerrIE) :
    (∃ v, s.writesReg 0x028 v) ∨ (s.resetsNext ∧ irq t = false) := by
  cases blockStep_of_step hstep with
  | written o w v u e ha hu =>
    cases hu with
    | sreset ho hw hd => exact .inr ⟨resetsNext_of_sreset ha ho hw hd, rfl⟩
    | irqEn ho hw =>
      subst ho hw
      exact .inl ⟨v, ha⟩
    | _ => simp at h
  | reset e hm => exact .inr ⟨.inl hm, rfl⟩
  | _ => simp at h

/-- If `irq` is 1 in one state and 0 in another, one of its two sources or of their enables differs (R48). -/
theorem source_of_irq_ne {s t : State} (hs : irq s = true) (ht : irq t = false) :
    (s.done = true ∧ t.done = false) ∨ (s.accerr = true ∧ t.accerr = false) ∨
      (t.doneIE ≠ s.doneIE ∨ t.accerrIE ≠ s.accerrIE) := by
  simp only [irq, Bool.or_eq_true, Bool.and_eq_true, Bool.or_eq_false_iff, Bool.and_eq_false_iff] at hs ht
  rcases hs with ⟨hd, he⟩ | ⟨ha, he⟩
  · rcases ht.1 with hd' | he'
    · exact .inl ⟨hd, hd'⟩
    · exact .inr (.inr (.inl (by simp [he, he'])))
  · rcases ht.2 with ha' | he'
    · exact .inr (.inl ⟨ha, ha'⟩)
    · exact .inr (.inr (.inr (by simp [he, he'])))

/-- Settles O51, from what changes DONE, ACCERR and the two enables. -/
theorem whatChangesIrq : Obligations.WhatChangesIrq := by
  intro s t hstep
  obtain ⟨doneRises, doneFalls⟩ := whatChangesDone s t hstep
  obtain ⟨accErrRises, accErrFalls⟩ := whatChangesAccErr s t hstep
  refine ⟨fun h1 h0 => ?_, fun h0 h1 => ?_⟩
  · rcases source_of_irq_ne h1 h0 with ⟨hs, ht⟩ | ⟨hs, ht⟩ | hie
    · rcases doneFalls hs ht with hcmd | ⟨v, hv, -⟩ | hr
      · exact .inr (.inr (.inl hcmd))
      · exact .inl ⟨v, hv⟩
      · exact .inr (.inr (.inr hr))
    · rcases accErrFalls hs ht with ⟨v, hv, -⟩ | hr
      · exact .inl ⟨v, hv⟩
      · exact .inr (.inr (.inr hr))
    · rcases enables_change hstep hie with hv | ⟨hr, -⟩
      · exact .inr (.inl hv)
      · exact .inr (.inr (.inr hr))
  · rcases source_of_irq_ne h1 h0 with ⟨ht, hs⟩ | ⟨ht, hs⟩ | hie
    · rcases doneRises hs ht with hc | ⟨c, hc, hl, hb, -⟩
      · exact .inl hc
      · exact .inr (.inl ⟨hb, c, hc, hl⟩)
    · exact .inr (.inr (.inl (accErrRises hs ht)))
    · rcases enables_change hstep (hie.imp Ne.symm Ne.symm) with hv | ⟨-, hirq⟩
      · exact .inr (.inr (.inr hv))
      · rw [hirq] at h1
        cases h1

/-! ## The parameters and the fault mark (10_state.md R40, R75; 43_control.md R192; 70_reset_and_hazards.md R243) -/

/-- No step changes the parameters. -/
theorem BlockStep.params_eq {s t : State} (h : BlockStep s t) : t.params = s.params := by
  cases h with
  | written o w v u e ha hu => cases hu <;> rfl
  | _ => rfl

/-- No host access touches the fault mark. -/
theorem AccessEnd.faulted_eq {a : Access} {s u : State} (h : AccessEnd a s u) : u.faulted = s.faulted := by
  cases h with
  | outside => rfl
  | read => rfl
  | write o w v u ha he =>
    cases he with
    | error => rfl
    | refused => rfl
    | done u hu => cases hu <;> rfl

/-- No move of an agent, a reset among them, clears the fault mark. -/
theorem agentMove_keeps_mark {a : Agent} {s t : State} {f : Fault} (hf : s.faulted = some f)
    (h : agentMove a s = .next t) : t.faulted = some f := by
  cases a with
  | host =>
    change hostMove s = .next t at h
    rcases hostMove_cases s with ⟨-, e⟩ | ⟨l, rest, u, p, -, hu, e⟩
    · rw [e] at h
      cases h
      exact hf
    · rw [e] at h
      cases h
      exact hu.faulted_eq.trans hf
  | engine =>
    have he := engineMove_cases s
    rw [show engineMove s = .next t from h] at he
    cases he with
    | idle => exact hf
    | completion => exact hf
    | marked => cases f; rfl
  | resetSource =>
    cases h
    exact hf

/-- Settles O52, the parameters by what a step can do, the fault mark by the moves of the agents. -/
theorem parametersNeverChange : Obligations.ParametersNeverChange := by
  refine ⟨fun s t hstep => ?_, fun s f hf => ⟨step_of_marked hf, fun a t h => agentMove_keeps_mark hf h⟩⟩
  have hp := (blockStep_of_step hstep).params_eq
  exact ⟨hp, by simp only [readReg, hp], rfl⟩

/-! ## The commands' frame and the results they do not list (10_state.md R35 to R42) -/

/-- Settles O17: a command of the engine ends in a completion, which writes none of these fields. -/
theorem engineCommandsFrame : Obligations.EngineCommandsFrame := by
  intro i s t hi h
  obtain ⟨k, r, rfl, -⟩ := exec_next (fun hs => by simp [hs] at hi) h
  exact ⟨fun _ => rfl, rfl, rfl, rfl, rfl, rfl, rfl, rfl, rfl⟩

/-- The input operation goes on only through its continuation, on the bytes that stand in IN. -/
theorem withInput_next {s t : State} {a n : Nat} {k : Bytes → Result} (h : withInput s a n k = .next t) :
    ∃ p, Memory.slice s.inBuf a n = some p ∧ k p = .next t := by
  rcases withInput_cases s a n k with ⟨p, hp, e⟩ | ⟨-, e⟩
  · exact ⟨p, hp, e ▸ h⟩
  · rw [e] at h
    cases h

/-- The two ways to a completion of a command that makes one check and then reads its input. -/
theorem checked_withInput_next {c : Prop} [Decidable c] {s t t₀ : State} {a n : Nat} {f : Bytes → State}
    (h : (if c then .next t₀ else withInput s a n fun p => .next (f p)) = Host.Outcome.next t) :
    (c ∧ t = t₀) ∨ (¬ c ∧ ∃ p, Memory.slice s.inBuf a n = some p ∧ t = f p) := by
  split at h
  · cases h
    exact .inl ⟨‹c›, rfl⟩
  · obtain ⟨p, hp, h⟩ := withInput_next h
    cases h
    exact .inr ⟨‹¬ c›, p, hp, rfl⟩

theorem execCrc_next {s t : State} (h : execCrc s = .next t) :
    ∃ p, Memory.slice s.inBuf 0 s.inLen = some p ∧ t = complete .none { crcRes := crc32 p } s := by
  obtain ⟨p, hp, h⟩ := withInput_next h
  cases h
  exact ⟨p, hp, rfl⟩

theorem execAppend_next {s t : State} (h : execAppend s = .next t) :
    (s.inLen + 4 > s.params.bufSize ∧ t = complete .capacity {} s) ∨
      (¬ s.inLen + 4 > s.params.bufSize ∧ ∃ p, Memory.slice s.inBuf 0 s.inLen = some p ∧
        t = complete .none { outSeq := appendCRC p, crcRes := crc32 p } s) :=
  checked_withInput_next h

theorem execVerify_next {s t : State} (h : execVerify s = .next t) :
    (s.inLen < 4 ∧ t = complete .corruptShort {} s) ∨
      (¬ s.inLen < 4 ∧ ∃ w, Memory.slice s.inBuf 0 s.inLen = some w ∧
        t = complete (if (verifyPacket w).ok then .none else .corruptCrc)
          { outSeq := (verifyPacket w).payload
            crcRes := (verifyPacket w).computed
            crcExp := (verifyPacket w).expected } s) :=
  checked_withInput_next h

theorem execFenc_next {s t : State} (h : execFenc s = .next t) :
    (s.inLen + 4 > s.params.bufSize ∧ t = complete .capacity {} s) ∨
      (¬ s.inLen + 4 > s.params.bufSize ∧ ∃ w, Memory.slice s.inBuf 0 s.inLen = some w ∧
        t = complete .none { outSeq := frameEncode w, frameLen := BitVec.ofNat 32 s.inLen } s) :=
  checked_withInput_next h

theorem execSend_next {s t : State} (h : execSend s = .next t) :
    (s.inLen > s.maxPkt ∧ t = complete .oversized {} s) ∨
      (¬ s.inLen > s.maxPkt ∧ ∃ p, Memory.slice s.inBuf 0 s.inLen = some p ∧
        t = complete .none
          { outSeq := frameEncode (appendCRC p)
            crcRes := crc32 p
            frameLen := BitVec.ofNat 32 (s.inLen + 4) } s) :=
  checked_withInput_next h

/-- Settles O18, command by command. -/
theorem unlistedResultsAreZero : Obligations.UnlistedResultsAreZero := by
  intro i s t h
  cases i with
  | crc =>
    obtain ⟨p, -, rfl⟩ := execCrc_next h
    simp
  | append => rcases execAppend_next h with ⟨-, rfl⟩ | ⟨-, p, -, rfl⟩ <;> simp
  | verify => rcases execVerify_next h with ⟨-, rfl⟩ | ⟨-, w, -, rfl⟩ <;> simp
  | fenc => rcases execFenc_next h with ⟨-, rfl⟩ | ⟨-, w, -, rfl⟩ <;> simp
  | recv => simp
  | recvEos => simp
  | send => rcases execSend_next h with ⟨-, rfl⟩ | ⟨-, p, -, rfl⟩ <;> simp
  | sreset =>
    cases h
    simp

/-! ## Register accesses (10_state.md R21 to R41) -/

/-- A 4-byte access at the offset of a register reaches it (R63). -/
theorem targetAt_regOffset (b : Nat) (r : Reg) : targetAt b (regOffset r) .w4 = some (.reg r) := by
  cases r <;> rfl

theorem hostRead_reg (r : Reg) (s : State) : hostRead (regOffset r) .w4 s = respondRead (readReg r s) s := by
  simp only [hostRead, targetAt_regOffset, readTarget]

theorem hostWrite_reg (r : Reg) (v : Word) (s : State) :
    hostWrite (regOffset r) .w4 v s = writeTarget (.reg r) v s := by
  simp only [hostWrite, targetAt_regOffset]

/-- A read of an exact value draws no free value. -/
theorem respondRead_exact (v : Word) (s : State) : respondRead (exact v) s = respond (.okayRead v) s := rfl

theorem freeWhileBusy_of_idle {s : State} (h : s.busy = false) (m v : Word) : freeWhileBusy m s v = exact v := by
  simp [freeWhileBusy, exact, h]

theorem freeWhileBusy_of_busy {s : State} (h : s.busy = true) (m v : Word) :
    freeWhileBusy m s v = { value := v, unspec := m } := by
  simp [freeWhileBusy, h]

/-- A value with no exact bit reads as the free value itself. -/
theorem fill_allOnes (v free : Word) : Datum.fill { value := v, unspec := BitVec.allOnes 32 } free = free := by
  simp only [Datum.fill, BitVec.and_allOnes, BitVec.not_allOnes, BitVec.and_zero, BitVec.zero_or]

/-- A read of a value with an unspecified bit draws a free value. -/
theorem respondRead_of_unspec {d : Datum} (h : d.unspec ≠ 0#32) (s : State) :
    respondRead d s = countDraw (respond (.okayRead (d.fill (Config.freeValue s.env.draws))) s) := if_neg h

/-- Settles O32, register by register: six are exact, and the five results share one form. -/
theorem registerReads : Obligations.RegisterReads := by
  intro s
  refine ⟨fun o x hox => ?_, fun o x hox => ?_⟩
  · simp only [List.mem_cons, Prod.mk.injEq, List.not_mem_nil, or_false] at hox
    rcases hox with ⟨rfl, rfl⟩ | ⟨rfl, rfl⟩ | ⟨rfl, rfl⟩ | ⟨rfl, rfl⟩ | ⟨rfl, rfl⟩ | ⟨rfl, rfl⟩
    · exact hostRead_reg .id s
    · exact hostRead_reg .cmd s
    · exact hostRead_reg .inLen s
    · exact hostRead_reg .maxPkt s
    · exact hostRead_reg .irqEn s
    · exact hostRead_reg .bufSize s
  · obtain ⟨r, rfl, hr⟩ : ∃ r, o = regOffset r ∧ readReg r s = freeWhileBusy (BitVec.allOnes 32) s x := by
      simp only [List.mem_cons, Prod.mk.injEq, List.not_mem_nil, or_false] at hox
      rcases hox with ⟨rfl, rfl⟩ | ⟨rfl, rfl⟩ | ⟨rfl, rfl⟩ | ⟨rfl, rfl⟩ | ⟨rfl, rfl⟩
      · exact ⟨.outLen, rfl, rfl⟩
      · exact ⟨.crcResult, rfl, rfl⟩
      · exact ⟨.crcExpected, rfl, rfl⟩
      · exact ⟨.frameLen, rfl, rfl⟩
      · exact ⟨.consumed, rfl, rfl⟩
    rw [hostRead_reg, hr]
    refine ⟨fun hb => ?_, fun hb => ?_⟩
    · rw [freeWhileBusy_of_idle hb]
      rfl
    · rw [freeWhileBusy_of_busy hb, respondRead_of_unspec (show BitVec.allOnes 32 ≠ 0#32 by decide), fill_allOnes]
      rfl

/-- A value without an unspecified bit reads as it is. -/
theorem fill_exact (v free : Word) : (exact v).fill free = v := by
  simp only [exact, Datum.fill, BitVec.not_zero, BitVec.and_allOnes, BitVec.and_zero, BitVec.or_zero]

/-- The response of a read: the exact bits of the value, its other bits from the next free value (R16). -/
theorem respondRead_resp (d : Datum) (s : State) :
    (respondRead d s).env.resp = some (.okayRead (d.fill (Config.freeValue s.env.draws))) := by
  obtain ⟨v, m⟩ := d
  by_cases h : m = 0#32
  · subst h
    rw [show Datum.mk v 0#32 = exact v from rfl, respondRead_exact, fill_exact]
    rfl
  · rw [respondRead_of_unspec h]
    rfl

/-- Each bit of a read comes from the value or, where that is unspecified, from the free value. -/
theorem fill_getLsbD (d : Datum) (free : Word) (j : Nat) :
    (d.fill free).getLsbD j = if d.unspec.getLsbD j then free.getLsbD j else d.value.getLsbD j := by
  by_cases hj : j < 32
  · simp only [Datum.fill, BitVec.getLsbD_or, BitVec.getLsbD_and, BitVec.getLsbD_not, hj, decide_true, Bool.true_and]
    cases d.unspec.getLsbD j <;> simp
  · simp [BitVec.getLsbD_of_ge _ j (Nat.le_of_not_lt hj)]

/-- A bit that is unspecified reads as the free value's. -/
theorem fill_bit_free {d : Datum} {j : Nat} (h : d.unspec.getLsbD j = true) (free : Word) :
    (d.fill free).getLsbD j = free.getLsbD j := by
  rw [fill_getLsbD, if_pos h]

/-- A field without an unspecified bit reads as the value's. -/
theorem fill_field_exact {d : Datum} {a n : Nat} (h : d.unspec.extractLsb' a n = 0#n) (free : Word) :
    (d.fill free).extractLsb' a n = d.value.extractLsb' a n := by
  refine BitVec.eq_of_getLsbD_eq fun j hj => ?_
  have hm : d.unspec.getLsbD (a + j) = false := by
    simpa [hj] using congrArg (BitVec.getLsbD · j) h
  simp only [BitVec.getLsbD_extractLsb', fill_getLsbD, hm, Bool.false_eq_true, if_false]

/-- A field without an exact bit reads as the free value's. -/
theorem fill_field_free {d : Datum} {a n : Nat} (h : d.unspec.extractLsb' a n = BitVec.allOnes n) (free : Word) :
    (d.fill free).extractLsb' a n = free.extractLsb' a n := by
  refine BitVec.eq_of_getLsbD_eq fun j hj => ?_
  have hm : d.unspec.getLsbD (a + j) = true := by
    simpa [hj] using congrArg (BitVec.getLsbD · j) h
  simp only [BitVec.getLsbD_extractLsb', fill_getLsbD, hm, if_true]

/-- A bit outside the free bits of a register reads exactly at all times (R41). -/
theorem freeWhileBusy_bit_exact {m : Word} {j : Nat} (h : m.getLsbD j = false) (s : State) (v free : Word) :
    ((freeWhileBusy m s v).fill free).getLsbD j = v.getLsbD j := by
  cases hb : s.busy with
  | false => rw [freeWhileBusy_of_idle hb, fill_exact]
  | true => simp only [freeWhileBusy_of_busy hb, fill_getLsbD, h, Bool.false_eq_true, if_false]

/-- A field outside the free bits of a register reads exactly at all times (R41). -/
theorem freeWhileBusy_field_exact {m : Word} {a n : Nat} (h : m.extractLsb' a n = 0#n) (s : State) (v free : Word) :
    ((freeWhileBusy m s v).fill free).extractLsb' a n = v.extractLsb' a n := by
  cases hb : s.busy with
  | false => rw [freeWhileBusy_of_idle hb, fill_exact]
  | true =>
    rw [freeWhileBusy_of_busy hb]
    exact fill_field_exact h free

/-- The one-bit fields of STATUS (R24). -/
theorem statusWord_bits (s : State) :
    (statusWord s).getLsbD 0 = s.busy ∧ (statusWord s).getLsbD 1 = s.done ∧ (statusWord s).getLsbD 2 = s.ok ∧
    (statusWord s).getLsbD 3 = s.accerr ∧ (statusWord s).getLsbD 4 = fatal s := by
  simp only [statusWord, BitVec.getLsbD_append, BitVec.getLsbD_ofBool]
  simp

/-- STATUS above its five one-bit fields: the reserved bits 7:5, CAUSE and the reserved bits 31:12 (R24). -/
theorem statusWord_extract_above (s : State) {a : Nat} (n : Nat) (h : 5 ≤ a) :
    (statusWord s).extractLsb' a n = (0#20 ++ causeCode s.cause ++ 0#3).extractLsb' (a - 5) n := by
  unfold statusWord
  rw [BitVec.extractLsb'_append_eq_of_le (by omega), BitVec.extractLsb'_append_eq_of_le (by omega),
    BitVec.extractLsb'_append_eq_of_le (by omega), BitVec.extractLsb'_append_eq_of_le (by omega),
    BitVec.extractLsb'_append_eq_of_le (by omega), show a - 1 - 1 - 1 - 1 - 1 = a - 5 by omega]

/-- The wider fields of STATUS (R24). -/
theorem statusWord_fields (s : State) :
    (statusWord s).extractLsb' 5 3 = 0#3 ∧ (statusWord s).extractLsb' 8 4 = causeCode s.cause ∧
    (statusWord s).extractLsb' 12 20 = 0#20 := by
  refine ⟨?_, ?_, ?_⟩ <;> rw [statusWord_extract_above s _ (by decide)]
  · exact BitVec.extractLsb'_append_eq_right
  · rw [BitVec.extractLsb'_append_eq_of_le (by decide)]
    exact BitVec.extractLsb'_append_eq_right
  · rw [BitVec.extractLsb'_append_eq_of_le (by decide)]
    exact BitVec.extractLsb'_append_eq_left

/-- The causes of the fatal class are the three of R29. -/
theorem fatal_eq_true_iff (s : State) : fatal s = true ↔ s.cause ∈ [.truncPrefix, .truncBody, .frameTooLong] := by
  unfold fatal
  cases s.cause <;> decide

/-- The codes of R210, as a table. -/
theorem causeCode_of_table : ∀ e ∈ [(Cause.none, 0#4), (.corruptCrc, 1#4), (.corruptShort, 2#4), (.oversized, 3#4),
    (.truncPrefix, 4#4), (.truncBody, 5#4), (.frameTooLong, 6#4), (.incomplete, 7#4), (.capacity, 8#4),
    (.illegalCmd, 9#4)], causeCode e.1 = e.2 := by
  decide

/-- Settles O33: the free bits of STATUS are those of OK, FATAL and CAUSE. -/
theorem statusReads : Obligations.StatusReads := by
  intro s
  obtain ⟨hbusy, hdone, hok, haccerr, hfatal⟩ := statusWord_bits s
  obtain ⟨hlow, hcause, hhigh⟩ := statusWord_fields s
  refine ⟨_, (congrArg (·.env.resp) (hostRead_reg .status s)).trans (respondRead_resp _ s),
    (freeWhileBusy_bit_exact (by decide) _ _ _).trans hbusy, (freeWhileBusy_bit_exact (by decide) _ _ _).trans hdone,
    (freeWhileBusy_bit_exact (by decide) _ _ _).trans haccerr, (freeWhileBusy_field_exact (by decide) _ _ _).trans hlow,
    (freeWhileBusy_field_exact (by decide) _ _ _).trans hhigh, fun hb => ?_, fun hb => ?_⟩
  · rw [freeWhileBusy_of_idle hb, fill_exact]
    refine ⟨hok, hfatal ▸ fatal_eq_true_iff s, ?_⟩
    rintro k n hkn rfl
    exact hcause.trans (causeCode_of_table _ hkn)
  · rw [freeWhileBusy_of_busy hb]
    obtain ⟨hokFree, hfatalFree, hcauseFree⟩ : statusFreeBits.getLsbD 2 = true ∧
        statusFreeBits.getLsbD 4 = true ∧ statusFreeBits.extractLsb' 8 4 = BitVec.allOnes 4 := by decide
    exact ⟨fill_bit_free hokFree _, fill_bit_free hfatalFree _, fill_field_free hcauseFree _⟩

/-- Settles O34, by the fifth check of R70, the only one that a write to these registers can fail while BUSY = 0. -/
theorem operandRegisterWrites : Obligations.OperandRegisterWrites := by
  intro s v hadm hb
  have hbound : v.toNat ≤ s.params.bufSize - 8 ↔ v.toNat + 8 ≤ s.params.bufSize := by
    have := hadm.1
    omega
  refine ⟨(hostWrite_reg .inLen v s).trans ?_, (hostWrite_reg .maxPkt v s).trans ?_⟩
  · by_cases hv : v.toNat ≤ s.params.bufSize
    · simp [writeTarget, writable, valueLegal, performWrite, okayWrite, hb, hv, respond, writeInLen]
    · simp [writeTarget, writable, valueLegal, hb, hv, busError, respond]
  · by_cases hv : v.toNat + 8 ≤ s.params.bufSize
    · simp [writeTarget, writable, valueLegal, performWrite, okayWrite, hb, hv, hbound, respond, writeMaxPkt]
    · simp [writeTarget, writable, valueLegal, hb, hv, hbound, busError, respond]

end Sys2Proof.Machine

/-! ## What an access reaches: the checks of 20_memory.md R70 as the claims word them, and the model's targets -/

namespace Sys2Proof.Machine

/-- Every multiple of 4 below 0x30 is the offset of a register (10_state.md R21). -/
theorem regAt_isSome : ∀ o < 0x30, o % 4 = 0 → (regAt o).isSome = true := by
  decide

/-- The IN window inside BUF_SIZE (R61). -/
theorem targetAt_inWindow {b i : Nat} (w : Width) (hi : i < b) (hb : b ≤ 0x10000) :
    targetAt b (0x10000 + i) w = windowTarget .inByte .inWord i w := by
  rw [targetAt, if_neg (by omega), if_neg (by omega), if_pos (by omega), Nat.add_sub_cancel_left, if_pos hi]

/-- The OUT window inside BUF_SIZE (R61). -/
theorem targetAt_outWindow {b i : Nat} (w : Width) (hi : i < b) (hb : b ≤ 0x10000) :
    targetAt b (0x20000 + i) w = windowTarget .outByte .outWord i w := by
  rw [targetAt, if_neg (by omega), if_neg (by omega), if_neg (by omega), if_pos (by omega), Nat.add_sub_cancel_left,
    if_pos hi]

/-- An aligned 4-byte access reaches the word at its index (R64, R65). -/
theorem windowTarget_word {byteAt wordAt : Nat → Target} {i : Nat} (hi : i % 4 = 0) :
    windowTarget byteAt wordAt i .w4 = some (wordAt i) := if_pos hi

/-- An access in a window that passes check 2 reaches a byte or a word (R64, R65, R71). -/
theorem windowTarget_of_allowed {byteAt wordAt : Nat → Target} {i : Nat} {w : Width}
    (h : w = .w1 ∨ (w = .w4 ∧ i % 4 = 0)) : ∃ t, windowTarget byteAt wordAt i w = some t := by
  rcases h with rfl | ⟨rfl, hi⟩
  · exact ⟨_, rfl⟩
  · exact ⟨_, windowTarget_word hi⟩

/-- Nothing stands at an offset of the reserved regions of R61, whatever BUF_SIZE is. -/
theorem targetAt_reserved {b o : Nat} (w : Width)
    (h : (0x30 ≤ o ∧ o < 0x10000) ∨ (0x10000 + b ≤ o ∧ o < 0x20000) ∨ (0x20000 + b ≤ o ∧ o < 0x30000) ∨
      (0x30000 ≤ o ∧ o < 0x40000)) : targetAt b o w = none := by
  unfold targetAt
  rcases h with h | h | h | h
  · rw [if_neg (by omega), if_pos (by omega)]
  · rw [if_neg (by omega), if_neg (by omega), if_pos (by omega), if_neg (by omega)]
  · rw [if_neg (by omega), if_neg (by omega), if_neg (by omega), if_pos (by omega), if_neg (by omega)]
  · rw [if_neg (by omega), if_neg (by omega), if_neg (by omega), if_neg (by omega)]

/-- An access that passes checks 1 and 2 reaches something. -/
theorem targetAt_of_checks {b o : Nat} {w : Width} (hb : b ≤ 0x10000) (hm : mappedOffset b o) (hw : widthAllowed o w) :
    ∃ t, targetAt b o w = some t := by
  rcases hm with ho | ⟨ho, hi⟩ | ⟨ho, hi⟩
  · obtain ⟨rfl, h4⟩ : w = .w4 ∧ o % 4 = 0 := hw.resolve_right (by omega)
    obtain ⟨r, hr⟩ := Option.isSome_iff_exists.1 (regAt_isSome o ho h4)
    rw [regAt_eq_some hr]
    exact ⟨_, targetAt_regOffset b r⟩
  · obtain ⟨i, rfl⟩ := Nat.exists_eq_add_of_le ho
    rw [targetAt_inWindow w (by omega) hb]
    exact windowTarget_of_allowed (hw.symm.imp And.left (And.imp_right fun h => by omega))
  · obtain ⟨i, rfl⟩ := Nat.exists_eq_add_of_le ho
    rw [targetAt_outWindow w (by omega) hb]
    exact windowTarget_of_allowed (hw.symm.imp And.left (And.imp_right fun h => by omega))

section Reached

variable {b o : Nat} {w : Width} {t : Target} (ht : targetAt b o w = some t)
include ht

/-- An access that reaches something has passed checks 1 and 2. -/
theorem checks_of_targetAt : mappedOffset b o ∧ widthAllowed o w := by
  rcases targetAt_cases ht with ⟨r, -, rfl, rfl⟩ | ⟨i, hi, rfl, h⟩ | ⟨i, hi, rfl, h⟩
  · have hr : regOffset r < 0x30 ∧ regOffset r % 4 = 0 := by cases r <;> decide
    exact ⟨.inl hr.1, .inl ⟨rfl, hr.2⟩⟩
  · rcases h with ⟨-, rfl⟩ | ⟨-, rfl, ha⟩
    · exact ⟨by omega, .inr ⟨rfl, by omega⟩⟩
    · exact ⟨by omega, .inl ⟨rfl, by omega⟩⟩
  · rcases h with ⟨-, rfl⟩ | ⟨-, rfl, ha⟩
    · exact ⟨by omega, .inr ⟨rfl, by omega⟩⟩
    · exact ⟨by omega, .inl ⟨rfl, by omega⟩⟩

/-- Check 3 on a target and on its offset. -/
theorem writable_iff_writeAllowed (hb : b ≤ 0x10000) : writable t = true ↔ writeAllowed o := by
  rcases targetAt_cases ht with ⟨r, rfl, rfl, rfl⟩ | ⟨i, hi, rfl, h⟩ | ⟨i, hi, rfl, h⟩
  · cases r <;> decide
  · have hwr : writable t = true := by rcases h with ⟨rfl, -⟩ | ⟨rfl, -, -⟩ <;> rfl
    exact iff_of_true hwr (by omega)
  · have hwr : writable t = false := by rcases h with ⟨rfl, -⟩ | ⟨rfl, -, -⟩ <;> rfl
    exact iff_of_false (by simp [hwr]) (by omega)

/-- Check 4 on a target and on its offset. -/
theorem refusedWhileBusy_iff_guardedWrite (v : Word) : refusedWhileBusy t v = true ↔ guardedWrite o v := by
  refine ⟨fun h => (guarded_of_refused ht h).2.2, fun hg => ?_⟩
  rcases targetAt_cases ht with ⟨r, rfl, rfl, rfl⟩ | ⟨i, hi, rfl, h⟩ | ⟨i, hi, rfl, h⟩
  · cases r with
    | cmd => simpa [refusedWhileBusy, guardedWrite, regOffset] using hg
    | inLen => rfl
    | maxPkt => rfl
    | _ => simp [guardedWrite, regOffset] at hg
  · rcases h with ⟨rfl, -⟩ | ⟨rfl, -, -⟩ <;> rfl
  · omega

/-- Check 5 on a target and on its offset. -/
theorem valueLegal_iff_valueInRange {p : Params} (hp : 8 ≤ p.bufSize) (v : Word) :
    valueLegal p t v = true ↔ valueInRange p.bufSize o v := by
  rcases targetAt_cases ht with ⟨r, rfl, rfl, rfl⟩ | ⟨i, hi, rfl, h⟩ | ⟨i, hi, rfl, h⟩
  · cases r with
    | inLen => simp [valueLegal, valueInRange, regOffset]
    | maxPkt =>
      simp only [valueLegal, regOffset, decide_eq_true_eq]
      omega
    | _ => simp [valueLegal, valueInRange, regOffset]
  · have hl : valueLegal p t v = true := by rcases h with ⟨rfl, -⟩ | ⟨rfl, -, -⟩ <;> rfl
    exact iff_of_true hl ⟨by omega, by omega⟩
  · have hl : valueLegal p t v = true := by rcases h with ⟨rfl, -⟩ | ⟨rfl, -, -⟩ <;> rfl
    exact iff_of_true hl ⟨by omega, by omega⟩

end Reached

/-- An access that fails check 1 or 2 reaches nothing. -/
theorem targetAt_eq_none {b o : Nat} {w : Width} (h : ¬ (mappedOffset b o ∧ widthAllowed o w)) :
    targetAt b o w = none :=
  Option.eq_none_iff_forall_ne_some.2 fun _ ht => h (checks_of_targetAt ht)

/-! ## The accesses by what they reach (20_memory.md R62, R68 to R70) -/

section Accesses

variable {o : Nat} {w : Width} {t : Target} {v : Word} {s : State}

theorem hostRead_of_none (h : targetAt s.params.bufSize o w = none) : hostRead o w s = busError s := by
  simp only [hostRead, h]

theorem hostRead_of_target (h : targetAt s.params.bufSize o w = some t) :
    hostRead o w s = respondRead (readTarget t s) s := by
  simp only [hostRead, h]

theorem hostWrite_of_none (h : targetAt s.params.bufSize o w = none) : hostWrite o w v s = .next (busError s) := by
  simp only [hostWrite, h]

theorem hostWrite_of_target (h : targetAt s.params.bufSize o w = some t) : hostWrite o w v s = writeTarget t v s := by
  simp only [hostWrite, h]

/-- Check 3 fails. -/
theorem writeTarget_readOnly (hw : writable t = false) : writeTarget t v s = .next (busError s) := if_pos hw

/-- Check 4 fails (R69). -/
theorem writeTarget_refused (hw : writable t = true) (hb : s.busy = true) (hr : refusedWhileBusy t v = true) :
    writeTarget t v s = .next (busError (setAccErr s)) := by
  simp [writeTarget, hw, hb, hr]

/-- Check 5 fails. -/
theorem writeTarget_illegalValue (hw : writable t = true) (hr : ¬ (s.busy = true ∧ refusedWhileBusy t v = true))
    (hv : valueLegal s.params t v = false) : writeTarget t v s = .next (busError s) := by
  rw [writeTarget, if_neg (by simp [hw]), if_neg (by simpa using hr), if_pos hv]

/-- All five checks pass. -/
theorem writeTarget_performs (hw : writable t = true) (hr : ¬ (s.busy = true ∧ refusedWhileBusy t v = true))
    (hv : valueLegal s.params t v = true) : writeTarget t v s = performWrite t v s := by
  rw [writeTarget, if_neg (by simp [hw]), if_neg (by simpa using hr), if_neg (by simp [hv])]

/-- A CMD write that is not refused always answers a next state (43_control.md R190). -/
theorem writeCmd_next (c : Word) (s : State) : ∃ u, writeCmd c s = .next u := by
  unfold writeCmd
  split
  · exact ⟨_, rfl⟩
  · exact ⟨_, rfl⟩
  · exact ⟨_, rfl⟩

/-- A write to a target that takes writes gets OKAY once it is performed. -/
theorem performWrite_okay (v : Word) (s : State) (hw : writable t = true) :
    ∃ u, performWrite t v s = .next (respond .okayWrite u) := by
  cases t with
  | reg r =>
    cases r with
    | cmd =>
      obtain ⟨u, hu⟩ := writeCmd_next v s
      exact ⟨u, by simp only [performWrite, hu, okayWrite]⟩
    | status => exact ⟨_, rfl⟩
    | inLen => exact ⟨_, rfl⟩
    | maxPkt => exact ⟨_, rfl⟩
    | irqEn => exact ⟨_, rfl⟩
    | _ => cases hw
  | inByte i => exact ⟨_, rfl⟩
  | inWord i => exact ⟨_, rfl⟩
  | outByte i => cases hw
  | outWord i => cases hw

end Accesses

/-- Settles O26: checks 1 and 2 are `targetAt`, and checks 3 to 5 on the target are those on the offset. -/
theorem accessChecksInOrder : Obligations.AccessChecksInOrder := by
  rintro s o w v ⟨hlow, hhigh, -, -⟩
  by_cases hm : mappedOffset s.params.bufSize o ∧ widthAllowed o w
  · obtain ⟨t, ht⟩ := targetAt_of_checks hhigh hm.1 hm.2
    have hwr := writable_iff_writeAllowed ht hhigh
    have hrf := refusedWhileBusy_iff_guardedWrite ht v
    have hvl := valueLegal_iff_valueInRange ht (p := s.params) (by omega) v
    rw [hostRead_of_target ht, hostWrite_of_target ht, ← hwr, ← hrf, ← hvl]
    refine ⟨fun h => absurd hm h, fun _ => ⟨_, respondRead_resp _ s⟩, fun h => ?_, fun ⟨_, _, hw⟩ =>
      ⟨fun hr => writeTarget_refused hw hr.1 hr.2, fun hr hv => ?_, fun hr hv => ?_⟩⟩
    · exact writeTarget_readOnly (Bool.eq_false_of_not_eq_true fun hw => h ⟨hm.1, hm.2, hw⟩)
    · exact writeTarget_illegalValue hw hr (Bool.eq_false_of_not_eq_true hv)
    · obtain ⟨u, hu⟩ := performWrite_okay v s hw
      exact ⟨_, (writeTarget_performs hw hr hv).trans hu, rfl⟩
  · have ht := targetAt_eq_none hm
    exact ⟨fun _ => hostRead_of_none ht, fun h => absurd h hm, fun _ => hostWrite_of_none ht,
      fun h => absurd ⟨h.1, h.2.1⟩ hm⟩

/-- Settles O27: nothing stands at a reserved offset. -/
theorem reservedOffsetsRaiseBusError : Obligations.ReservedOffsetsRaiseBusError := by
  intro s o w v h
  have ht := targetAt_reserved w h
  exact ⟨hostRead_of_none ht, hostWrite_of_none ht⟩

/-- Settles O28: the listed writes pass checks 1 to 3 and fail check 4, or are not guarded and pass check 5 too. -/
theorem operandWritesAreRefusedWhileBusy : Obligations.OperandWritesAreRefusedWhileBusy := by
  intro s v hadm hb
  have hsize := hadm.2.1
  refine ⟨fun o w h => ?_, fun o h => ?_⟩
  · obtain ⟨-, -, -, checks⟩ := accessChecksInOrder s o w v hadm
    obtain ⟨hpass, hg⟩ : (mappedOffset s.params.bufSize o ∧ widthAllowed o w ∧ writeAllowed o) ∧ guardedWrite o v := by
      rcases h with ⟨hlo, hhi, rfl | ⟨rfl, h4⟩⟩ | ⟨rfl, rfl | rfl | ⟨rfl, hv⟩⟩
      · exact ⟨⟨by omega, .inr ⟨rfl, hlo⟩, by omega⟩, .inl (by omega)⟩
      · exact ⟨⟨by omega, .inl ⟨rfl, h4⟩, by omega⟩, .inl (by omega)⟩
      · exact ⟨⟨.inl (by decide), .inl ⟨rfl, rfl⟩, by decide⟩, .inr (.inl rfl)⟩
      · exact ⟨⟨.inl (by decide), .inl ⟨rfl, rfl⟩, by decide⟩, .inr (.inr (.inl rfl))⟩
      · exact ⟨⟨.inl (by decide), .inl ⟨rfl, rfl⟩, by decide⟩, .inr (.inr (.inr ⟨rfl, hv⟩))⟩
    obtain ⟨refused, -, -⟩ := checks hpass
    exact refused ⟨hb, hg⟩
  · obtain ⟨-, -, -, checks⟩ := accessChecksInOrder s o .w4 v hadm
    have hpass : mappedOffset s.params.bufSize o ∧ widthAllowed o .w4 ∧ writeAllowed o := by
      rcases h with rfl | rfl <;> exact ⟨.inl (by decide), .inl ⟨rfl, rfl⟩, by decide⟩
    obtain ⟨-, -, accepted⟩ := checks hpass
    exact accepted (by rcases h with rfl | rfl <;> simp [guardedWrite]) (by rcases h with rfl | rfl <;> simp [valueInRange])

/-! ## The buffer windows: byte lanes and free bytes (20_memory.md R64, R65, R67) -/

/-- The four bytes of a word put together, each in its own lane (R67). -/
theorem extractLsb'_lanes (f : Nat → Byte) {k : Nat} (hk : k < 4) :
    (f 3 ++ f 2 ++ f 1 ++ f 0).extractLsb' (8 * k) 8 = f k := by
  interval_cases k
  · exact BitVec.extractLsb'_append_eq_right
  · rw [BitVec.extractLsb'_append_eq_of_le (by decide)]
    exact BitVec.extractLsb'_append_eq_right
  · rw [BitVec.extractLsb'_append_eq_of_le (by decide), BitVec.extractLsb'_append_eq_of_le (by decide)]
    exact BitVec.extractLsb'_append_eq_right
  · rw [BitVec.extractLsb'_append_eq_of_le (by decide), BitVec.extractLsb'_append_eq_of_le (by decide)]
    exact BitVec.extractLsb'_append_eq_left

/-- A 4-byte read gives each byte in its lane, a byte that is not there to give being free (R16, R67). -/
theorem fill_datumOfLanes (b : Nat → Option Byte) (free : Word) {k : Nat} (hk : k < 4) :
    ((datumOfLanes (b 0) (b 1) (b 2) (b 3)).fill free).extractLsb' (8 * k) 8 =
      (b k).getD (free.extractLsb' (8 * k) 8) := by
  have hvalue := extractLsb'_lanes (fun j => (b j).getD 0#8) hk
  have hunspec := extractLsb'_lanes (fun j => byteMask (b j)) hk
  cases h : b k with
  | none => exact fill_field_free (hunspec.trans (by rw [h]; rfl)) free
  | some x => exact (fill_field_exact (hunspec.trans (by rw [h]; rfl)) free).trans (hvalue.trans (by rw [h]; rfl))

/-- A 1-byte read gives the byte, or a free one if there is none to give (R16, R64). -/
theorem fill_datumOfByte (b : Option Byte) (free : Word) :
    (datumOfByte b).fill free = (b.getD (free.extractLsb' 0 8)).setWidth 32 := by
  cases b with
  | some x => exact fill_exact _ free
  | none =>
    refine BitVec.eq_of_getLsbD_eq fun j hj => ?_
    have hmask : (datumOfByte none).unspec.getLsbD j = decide (j < 8) := by
      interval_cases j <;> rfl
    rw [fill_getLsbD, hmask]
    by_cases h8 : j < 8
    · simp [h8, hj]
    · simp [h8, datumOfByte]

/-- What OUT gives to a read (R45). -/
theorem outByte_getD (s : State) (i : Nat) (x : Byte) :
    (outByte s i).getD x = if s.busy = false ∧ i < s.outSeq.length then s.outSeq[i]?.getD 0#8 else x := by
  cases hb : s.busy with
  | true => simp [outByte, hb]
  | false =>
    by_cases hi : i < s.outSeq.length
    · simp [outByte, hb, hi]
    · simp [outByte, hb, hi]

section Windows

variable {s : State} {i : Nat} (hi : i < s.params.bufSize) (hsize : s.params.bufSize ≤ 0x10000)
include hi hsize

theorem hostRead_inByte : (hostRead (0x10000 + i) .w1 s).env.resp = some (.okayRead
    (((Memory.read s.inBuf i).getD ((Config.freeValue s.env.draws).extractLsb' 0 8)).setWidth 32)) := by
  rw [hostRead_of_target (targetAt_inWindow .w1 hi hsize), respondRead_resp, ← fill_datumOfByte]
  rfl

theorem hostRead_inWord (ha : i % 4 = 0) : (hostRead (0x10000 + i) .w4 s).env.resp =
    some (.okayRead ((readTarget (.inWord i) s).fill (Config.freeValue s.env.draws))) := by
  rw [hostRead_of_target ((targetAt_inWindow .w4 hi hsize).trans (windowTarget_word ha)), respondRead_resp]

theorem hostRead_outByte : (hostRead (0x20000 + i) .w1 s).env.resp = some (.okayRead
    (((outByte s i).getD ((Config.freeValue s.env.draws).extractLsb' 0 8)).setWidth 32)) := by
  rw [hostRead_of_target (targetAt_outWindow .w1 hi hsize), respondRead_resp, ← fill_datumOfByte]
  rfl

theorem hostRead_outWord (ha : i % 4 = 0) : (hostRead (0x20000 + i) .w4 s).env.resp =
    some (.okayRead ((readTarget (.outWord i) s).fill (Config.freeValue s.env.draws))) := by
  rw [hostRead_of_target ((targetAt_outWindow .w4 hi hsize).trans (windowTarget_word ha)), respondRead_resp]

theorem hostWrite_inByte (hb : s.busy = false) (v : Word) :
    hostWrite (0x10000 + i) .w1 v s = .next (respond .okayWrite (storeByte i v s)) :=
  (hostWrite_of_target (targetAt_inWindow .w1 hi hsize)).trans (writeTarget_performs rfl (by simp [hb]) rfl)

theorem hostWrite_inWord (ha : i % 4 = 0) (hb : s.busy = false) (v : Word) :
    hostWrite (0x10000 + i) .w4 v s = .next (respond .okayWrite (storeWord i v s)) :=
  (hostWrite_of_target ((targetAt_inWindow .w4 hi hsize).trans (windowTarget_word ha))).trans
    (writeTarget_performs rfl (by simp [hb]) rfl)

end Windows

/-- The bytes of a word store, by their lanes (R64, R67). -/
theorem Memory.read_writeWord_lane (m : Memory) (i : Nat) (v : Word) {k : Nat} (hk : k < 4) :
    Memory.read (Memory.writeWord m i v) (i + k) = some (v.extractLsb' (8 * k) 8) := by
  rw [Memory.read_writeWord]
  interval_cases k <;> simp

/-- A word store leaves the bytes on both sides of it alone. -/
theorem Memory.read_writeWord_outside (m : Memory) {i j : Nat} (v : Word) (h : j < i ∨ i + 4 ≤ j) :
    Memory.read (Memory.writeWord m i v) j = Memory.read m j := by
  rw [Memory.read_writeWord, if_neg (by omega), if_neg (by omega), if_neg (by omega), if_neg (by omega)]

/-- Settles O29, by the targets of the window and the rules of the input buffer; a misaligned access fails check 2. -/
theorem inWindowAccess : Obligations.InWindowAccess := by
  intro s i hadm hi
  have hsize := hadm.2.1
  refine ⟨fun hb v => ⟨?_, fun ha => ?_⟩, hostRead_inByte hi hsize, fun ha => ⟨_, hostRead_inWord hi hsize ha, ?_⟩,
    fun ha v => ?_⟩
  · exact ⟨_, hostWrite_inByte hi hsize hb v, Memory.read_write_same _ _ _, fun j hj => Memory.read_write_ne _ _ hj⟩
  · exact ⟨_, hostWrite_inWord hi hsize ha hb v, fun k hk => Memory.read_writeWord_lane _ _ v hk,
      fun j hj => Memory.read_writeWord_outside _ v hj⟩
  · exact fun k hk => fill_datumOfLanes (fun k => Memory.read s.inBuf (i + k)) _ hk
  · have hmis : ¬ widthAllowed (0x10000 + i) .w4 := by
      rintro (⟨-, h⟩ | ⟨h, -⟩)
      · omega
      · cases h
    obtain ⟨readErr, -, writeErr, -⟩ := accessChecksInOrder s (0x10000 + i) .w4 v hadm
    exact ⟨readErr fun h => hmis h.2, writeErr fun h => hmis h.2.1⟩

/-- Settles O30, by the targets of the window; no offset of it passes check 3. -/
theorem outWindowAccess : Obligations.OutWindowAccess := by
  intro s i hadm hi
  have hsize := hadm.2.1
  refine ⟨?_, fun ha => ⟨_, hostRead_outWord hi hsize ha, fun k hk => ?_⟩, fun w v => ?_⟩
  · rw [← outByte_getD]
    exact hostRead_outByte hi hsize
  · rw [← outByte_getD]
    exact fill_datumOfLanes (fun k => outByte s (i + k)) _ hk
  · obtain ⟨-, -, writeErr, -⟩ := accessChecksInOrder s (0x20000 + i) w v hadm
    exact writeErr fun ⟨_, _, h⟩ => by omega

/-! ## Reads have no side effects (20_memory.md R73) -/

/-- What a read gives is the block's, not the outside world's. -/
theorem readTarget_withEnv (t : Target) (s : State) (e : Env) : readTarget t { s with env := e } = readTarget t s := by
  cases t with
  | reg r => cases r <;> rfl
  | _ => rfl

/-- A read that draws no free value has no unspecified bit. -/
theorem unspec_of_draws_eq {d : Datum} {s : State} (h : (respondRead d s).env.draws = s.env.draws) :
    d.unspec = 0#32 := by
  by_contra hd
  rw [respondRead_of_unspec hd] at h
  exact Nat.succ_ne_self _ h

/-- A read that draws no free value gives the same response whatever the outside world holds. -/
theorem hostRead_resp_withEnv {o : Nat} {w : Width} {s : State} (h : (hostRead o w s).env.draws = s.env.draws) (e : Env) :
    (hostRead o w { s with env := e }).env.resp = (hostRead o w s).env.resp := by
  cases ht : targetAt s.params.bufSize o w with
  | none =>
    rw [hostRead_of_none ht, hostRead_of_none (s := { s with env := e }) ht]
    rfl
  | some t =>
    rw [hostRead_of_target ht] at h
    have hd := unspec_of_draws_eq h
    rw [hostRead_of_target ht, hostRead_of_target (s := { s with env := e }) ht, readTarget_withEnv, respondRead,
      respondRead, if_pos hd, if_pos hd]
    rfl

/-- The exact bits of a read do not depend on the free value. -/
theorem fill_and_exact {d : Datum} {m : Word} (h : d.unspec &&& m = 0#32) (free : Word) :
    d.fill free &&& m = d.value &&& m := by
  refine BitVec.eq_of_getLsbD_eq fun j hj => ?_
  have hbit : (d.unspec.getLsbD j && m.getLsbD j) = false := by
    simpa using congrArg (BitVec.getLsbD · j) h
  rw [BitVec.getLsbD_and, BitVec.getLsbD_and, fill_getLsbD]
  cases hm : m.getLsbD j with
  | false => simp
  | true => simp [by simpa [hm] using hbit]

/-- The bits of STATUS that are exact at all times (R24, R41). -/
theorem status_read_and_exact {s : State} {d : Word} (h : (hostRead 0x008 .w4 s).env.resp = some (.okayRead d)) :
    d &&& 0xFFFFF0EB#32 = statusWord s &&& 0xFFFFF0EB#32 := by
  have hunspec : (readReg .status s).unspec &&& 0xFFFFF0EB#32 = 0#32 := by
    cases hb : s.busy <;> simp [readReg, freeWhileBusy, hb, statusFreeBits]
  have hd : (readReg .status s).fill (Config.freeValue s.env.draws) = d := by
    rw [show (0x008 : Nat) = regOffset .status from rfl, hostRead_reg, respondRead_resp] at h
    simpa using h
  rw [← hd, fill_and_exact hunspec]
  rfl

/-- Settles O31: a read changes the outside world only, on which neither an exact value nor the STATUS word depends. -/
theorem readsHaveNoSideEffects : Obligations.ReadsHaveNoSideEffects := by
  intro o p w x s
  obtain ⟨r, n, hp⟩ := hostRead_eq p x s
  refine ⟨hostRead_eq o w s, fun h => ?_, fun d e hd he => ?_⟩
  · rw [hp]
    exact hostRead_resp_withEnv h _
  · rw [hp] at he
    exact (status_read_and_exact he).trans (status_read_and_exact hd).symm

/-! ## Steps while BUSY = 1 and at a valid end (20_memory.md R69, 43_control.md R191, 70_reset_and_hazards.md R254) -/

/-- Settles O50, by what a step can do: the writes that would change an operand are accepted while BUSY = 0 only, and a
completion or a reset ends BUSY. -/
theorem operandsAreFixedWhileBusy : Obligations.OperandsAreFixedWhileBusy := by
  intro s t hstep h1 ht
  cases blockStep_of_step hstep with
  | written o w v u e ha hu =>
    cases hu with
    | sreset => cases ht
    | status => exact ⟨rfl, rfl, rfl, rfl⟩
    | irqEn => exact ⟨rfl, rfl, rfl, rfl⟩
    | _ => exact absurd h1 (by simp [‹s.busy = false›])
  | completed => cases ht
  | reset => cases ht
  | _ => exact ⟨rfl, rfl, rfl, rfl⟩

/-- Settles O54, by the agent that moves: the host has no line left and the engine is not enabled. -/
theorem validEndsAreFinal : Obligations.ValidEndsAreFinal := by
  rintro s ⟨⟨hb, hp⟩, hf⟩
  rw [step_of_unmarked hf]
  refine ⟨fun hm => ⟨?_, ⟨hb, hp⟩, hf⟩, fun hm => ⟨resetBlock s.popped, ?_, ⟨⟨rfl, hp⟩, hf⟩, rfl⟩⟩
  · cases hmov : s.mover with
    | host => simp only [agentMove, hostMove, popped_program, hp]
    | engine => simp [agentMove, engineMove, hb]
    | resetSource => exact absurd hmov hm
  · rw [hm]
    rfl

/-! ## The aperture (20_memory.md R60, R75) -/

theorem apertureOffset_inside {p : Params} {o : Nat} (h : o < 0x40000) : apertureOffset p (p.base + o) = some o := by
  rw [apertureOffset, if_pos ⟨by omega, by simpa [Config.apertureSize] using h⟩, Nat.add_sub_cancel_left]

theorem apertureOffset_outside {p : Params} {addr : Nat} (h : addr < p.base ∨ p.base + 0x40000 ≤ addr) :
    apertureOffset p addr = none :=
  if_neg (by simp only [Config.apertureSize]; omega)

/-- Settles O38, by the offset that an address stands for. -/
theorem apertureOffsets : Obligations.ApertureOffsets := by
  intro s addr w v
  refine ⟨?_, fun h => ?_⟩
  · rintro o ho rfl
    simp only [hostAccess, apertureOffset_inside ho, and_self]
  · simp only [hostAccess, apertureOffset_outside h, noResponse, and_self]

end Sys2Proof.Machine

/-! ## Decoding and encoding (30_encoding.md R100 to R104) -/

namespace Sys2Proof

/-- The word of a command decodes to that command. -/
theorem decode_encode (i : Instr) : decode (encode i) = .ok i := by
  cases i <;> rfl

/-- Settles O1: the one direction reads the fields of the word back, the other runs the decoder on the eight words. -/
theorem decodeAndEncodeAgree : Obligations.DecodeAndEncodeAgree := by
  refine fun c i => ⟨eq_encode_of_decode, ?_⟩
  rintro rfl
  exact decode_encode i

/-- The decoder accepts the legal words and no others (R104). -/
theorem exists_decode_iff_legalWord (c : Word) : (∃ i, decode c = .ok i) ↔ legalWord c = true := by
  refine ⟨?_, decode_of_legalWord⟩
  rintro ⟨i, hi⟩
  rw [eq_encode_of_decode hi]
  cases i <;> rfl

/-- The eight commands, in the order of the table of R103. -/
def allCommands : List Instr := [.crc, .append, .verify, .fenc, .recv, .recvEos, .send, .sreset]

theorem mem_allCommands (i : Instr) : i ∈ allCommands := by
  cases i <;> decide

/-- Settles O2: the words of R103 are those of the eight commands, and by O1 these are the words that decode. -/
theorem legalWordsAreTheEight : Obligations.LegalWordsAreTheEight := by
  refine fun c => ⟨?_, exists_decode_iff_legalWord c, fun w i hw => ?_⟩
  · change legalWord c = true ↔ c ∈ allCommands.map encode
    calc legalWord c = true
      _ ↔ ∃ i, decode c = .ok i := (exists_decode_iff_legalWord c).symm
      _ ↔ ∃ i, c = encode i := exists_congr fun i => decodeAndEncodeAgree c i
      _ ↔ c ∈ allCommands.map encode := by simp [mem_allCommands, eq_comm]
  · change (w, i) ∈ allCommands.map (fun j => (encode j, j)) at hw
    obtain ⟨j, -, hj⟩ := List.mem_map.1 hw
    cases hj
    exact decodeAndEncodeAgree c i

/-- Settles O3, by running the decoder on each word. -/
theorem sampleCommandWordsDecode : Obligations.SampleCommandWordsDecode :=
  ⟨rfl, rfl, rfl, rfl, rfl, rfl, rfl, rfl⟩

end Sys2Proof

namespace Sys2Proof.Machine

/-! ## A command reads only its operands (30_encoding.md R105) -/

/-- The operands of the commands are the same in two states: IN_LEN, MAX_PKT and `IN[0 : IN_LEN]`, with the parameter
BUF_SIZE (R105). -/
structure SameOperands (s u : State) : Prop where
  inLen : u.inLen = s.inLen
  maxPkt : u.maxPkt = s.maxPkt
  bufSize : u.params.bufSize = s.params.bufSize
  read : ∀ j, j < s.inLen → Memory.read u.inBuf j = Memory.read s.inBuf j

/-- A command run in two states ends the same way in both: in a completion with one cause and one record of results, or
in one fault. -/
inductive SameEnd (s u : State) : Result → Result → Prop
  | completion (k : Cause) (r : Results) : SameEnd s u (.next (complete k r s)) (.next (complete k r u))
  | fault (f : Fault) : SameEnd s u (.fault f) (.fault f)

/-- A slice depends on the bytes it takes alone. -/
theorem Memory.slice_congr {m m' : Memory} {a n : Nat}
    (h : ∀ j, a ≤ j → j < a + n → Memory.read m' j = Memory.read m j) :
    Memory.slice m' a n = Memory.slice m a n := by
  induction n generalizing a with
  | zero => rfl
  | succ n ih =>
    have htail : Memory.slice m' (a + 1) n = Memory.slice m (a + 1) n := ih fun j ha hj => h j (by omega) (by omega)
    simp only [Memory.slice, h a le_rfl (by omega), htail]

section
variable {s u : State}

theorem sameEnd_ite {c : Prop} [Decidable c] {o₁ o₂ o₁' o₂' : Result} (h₁ : c → SameEnd s u o₁ o₁')
    (h₂ : ¬ c → SameEnd s u o₂ o₂') : SameEnd s u (if c then o₁ else o₂) (if c then o₁' else o₂') := by
  split
  · exact h₁ ‹c›
  · exact h₂ ‹¬ c›

/-- The input operation inside `IN[0 : IN_LEN]` gives both states the same bytes, or the same fault. -/
theorem sameEnd_withInput (h : SameOperands s u) {a n : Nat} (hn : a + n ≤ s.inLen) {k k' : Bytes → Result}
    (hk : ∀ p, SameEnd s u (k p) (k' p)) : SameEnd s u (withInput s a n k) (withInput u a n k') := by
  have hslice : Memory.slice u.inBuf a n = Memory.slice s.inBuf a n :=
    Memory.slice_congr fun j _ hj => h.read j (by omega)
  rw [withInput, withInput, hslice]
  cases Memory.slice s.inBuf a n with
  | some p => exact hk p
  | none => exact .fault _

theorem recvVerdict_sameEnd (len : Word) (w : Bytes) : SameEnd s u (recvVerdict len w s) (recvVerdict len w u) :=
  sameEnd_ite (fun _ => .completion _ _) (fun _ => .completion _ _)

theorem recvBody_sameEnd (h : SameOperands s u) (eos : Bool) (len : Word) (h4 : 4 ≤ s.inLen) :
    SameEnd s u (recvBody eos len s) (recvBody eos len u) := by
  unfold recvBody
  rw [h.maxPkt, h.inLen]
  refine sameEnd_ite (fun _ => .completion _ _) fun _ => sameEnd_ite (fun _ => .completion _ _) fun hl => ?_
  exact sameEnd_withInput h (by omega) (recvVerdict_sameEnd len)

theorem recvFrame_sameEnd (h : SameOperands s u) (eos : Bool) : SameEnd s u (recvFrame eos s) (recvFrame eos u) := by
  unfold recvFrame
  rw [h.inLen]
  refine sameEnd_ite (fun _ => .completion _ _) fun h4 => ?_
  exact sameEnd_withInput h (by omega) fun p => recvBody_sameEnd h eos _ (by omega)

/-- A command that makes one check and then reads all of its input. -/
theorem sameEnd_checked_withInput (h : SameOperands s u) {c : Prop} [Decidable c] (k : Cause) {f f' : Bytes → Result}
    (hf : ∀ p, SameEnd s u (f p) (f' p)) :
    SameEnd s u (if c then .next (complete k {} s) else withInput s 0 s.inLen f)
      (if c then .next (complete k {} u) else withInput u 0 s.inLen f') :=
  sameEnd_ite (fun _ => .completion _ _) fun _ => sameEnd_withInput h (by omega) hf

/-- Every command but SRESET ends the same way in two states with the same operands. -/
theorem exec_sameEnd (h : SameOperands s u) {i : Instr} (hi : i ≠ .sreset) : SameEnd s u (exec i s) (exec i u) := by
  cases i with
  | crc =>
    simp only [exec, execCrc, h.inLen]
    exact sameEnd_withInput h (by omega) fun _ => .completion _ _
  | append =>
    simp only [exec, execAppend, h.inLen, h.bufSize]
    exact sameEnd_checked_withInput h _ fun _ => .completion _ _
  | verify =>
    simp only [exec, execVerify, h.inLen]
    exact sameEnd_checked_withInput h _ fun _ => .completion _ _
  | fenc =>
    simp only [exec, execFenc, h.inLen, h.bufSize]
    exact sameEnd_checked_withInput h _ fun _ => .completion _ _
  | recv => exact recvFrame_sameEnd h false
  | recvEos => exact recvFrame_sameEnd h true
  | send =>
    simp only [exec, execSend, h.inLen, h.maxPkt]
    exact sameEnd_checked_withInput h _ fun _ => .completion _ _
  | sreset => exact absurd rfl hi

end

/-- Settles O20: the two states' completions write the same record. -/
theorem commandsReadOnlyTheirOperands : Obligations.CommandsReadOnlyTheirOperands := by
  intro i s u t hi hlen hmax hbuf hread ht
  have hend := exec_sameEnd (s := s) (u := u) ⟨hlen, hmax, hbuf, hread⟩ hi
  rw [ht] at hend
  generalize exec i u = o at hend ⊢
  cases hend with
  | completion k r => exact ⟨complete k r u, rfl, rfl, rfl, rfl⟩

/-! ## The host's step (30_encoding.md R107, 43_control.md R192) -/

theorem hostMove_nil {s : State} (hp : s.env.program = []) : hostMove s = .next s := by
  simp only [hostMove, hp]

theorem hostMove_cons {s t : State} {l : Line} {rest : List Line} (hp : s.env.program = l :: rest)
    (ha : hostAccess (lineAccess l.op) s = .next t) :
    hostMove s = .next (setProgram (programAfter l rest t.env.resp) t) := by
  simp only [hostMove, hp, ha]

/-- A POLL line stands again until its condition holds. -/
theorem programAfter_poll {l : Line} {addr : Nat} {mask val : Word} (h : l.op = .poll addr mask val) (rest : List Line)
    (d : Word) : programAfter l rest (some (.okayRead d)) = if d &&& mask = val then rest else l :: rest := by
  simp only [programAfter, h]

/-- A line of one access is done when its response is no ERROR. -/
theorem programAfter_access {l : Line} {a : Access} (h : l.op = .access a) (rest : List Line) {r : Response}
    (hr : r ≠ .busError) : programAfter l rest (some r) = rest := by
  cases r with
  | okayRead d => simp only [programAfter, h]
  | okayWrite => rfl
  | busError => exact absurd rfl hr

/-- Settles O40: an unmarked state whose mover is the host makes the host's move. -/
theorem hostStepRunsOneLine : Obligations.HostStepRunsOneLine := by
  intro s hm
  have move : s.faulted = none → step s = hostMove s.popped := by
    intro hf
    rw [step_of_unmarked hf, hm]
    rfl
  refine ⟨fun f => step_of_marked, fun hf hp => (move hf).trans (hostMove_nil hp), fun l rest t hf hp ha => ?_⟩
  refine ⟨programAfter l rest t.env.resp, (move hf).trans (hostMove_cons hp ha), fun hr => ?_,
    fun d addr mask val hl hr => ?_, fun a r hl hr hne => ?_, fun hr => ?_⟩
  · rw [hr]
    rfl
  · rw [hr]
    exact programAfter_poll hl rest d
  · rw [hr]
    exact programAfter_access hl rest hne
  · rw [hr]
    rfl

end Sys2Proof.Machine

/-! ## CRC-32 (40_crc.md R121, R122, R126) -/

namespace Sys2Proof.Machine

/-! The loop is linear over GF(2). -/

/-- What the bit that falls out adds to the register. -/
def crcFeedback (b : Bool) : Word := if b then 0xEDB88320#32 else 0#32

theorem crcFeedback_xor (a b : Bool) : crcFeedback (a ^^ b) = crcFeedback a ^^^ crcFeedback b := by
  cases a <;> cases b <;> rfl

theorem crcBit_eq_xor (c : Word) : crcBit c = c >>> 1 ^^^ crcFeedback (c.getLsbD 0) := by
  rw [crcBit]
  cases c.getLsbD 0
  · exact BitVec.xor_zero.symm
  · rfl

theorem crcBit_of_clear {c : Word} (h : c.getLsbD 0 = false) : crcBit c = c >>> 1 := by
  rw [crcBit, h, if_neg Bool.false_ne_true]

theorem crcBit_xor (c d : Word) : crcBit (c ^^^ d) = crcBit c ^^^ crcBit d := by
  simp only [crcBit_eq_xor, BitVec.getLsbD_xor, crcFeedback_xor, BitVec.ushiftRight_xor_distrib]
  ac_rfl

theorem crcBits_xor (n : Nat) (c d : Word) : crcBits n (c ^^^ d) = crcBits n c ^^^ crcBits n d := by
  induction n generalizing c d with
  | zero => rfl
  | succ n ih => simp only [crcBits, crcBit_xor, ih]

theorem crcByte_xor (c d : Word) (a b : Byte) : crcByte (c ^^^ d) (a ^^^ b) = crcByte c a ^^^ crcByte d b := by
  simp only [crcByte, ← crcBits_xor, BitVec.setWidth_xor]
  ac_rfl

@[simp] theorem xorBytes_cons (a b : Byte) (p q : Bytes) : xorBytes (a :: p) (b :: q) = (a ^^^ b) :: xorBytes p q := rfl

@[simp] theorem crcLoop_cons (c : Word) (b : Byte) (p : Bytes) : crcLoop c (b :: p) = crcLoop (crcByte c b) p := rfl

theorem crcLoop_xorBytes (c d : Word) {p q : Bytes} (h : p.length = q.length) :
    crcLoop (c ^^^ d) (xorBytes p q) = crcLoop c p ^^^ crcLoop d q := by
  induction p generalizing c d q with
  | nil =>
    obtain rfl := List.length_eq_zero_iff.1 h.symm
    rfl
  | cons a p ih =>
    cases q with
    | nil => cases h
    | cons b q =>
      simp only [xorBytes_cons, crcLoop_cons, crcByte_xor]
      exact ih _ _ (Nat.succ.inj h)

/-- The initial value and the final XOR cancel in a difference (R126). -/
theorem crc32_xor_crc32 {p q : Bytes} (h : p.length = q.length) : crc32 p ^^^ crc32 q = crc0 (xorBytes p q) := by
  calc crc32 p ^^^ crc32 q
    _ = crcLoop 0xFFFFFFFF#32 p ^^^ crcLoop 0xFFFFFFFF#32 q := by
      rw [crc32, crc32, BitVec.xor_comm (crcLoop _ q), BitVec.xor_assoc, xor_cancel_left]
    _ = crc0 (xorBytes p q) := (crcLoop_xorBytes _ _ h).symm

/-! The table form. -/

/-- While zeros fall out, the loop only shifts. -/
theorem crcBits_of_low_zero {n : Nat} {c : Word} (h : ∀ i < n, c.getLsbD i = false) : crcBits n c = c >>> n := by
  induction n generalizing c with
  | zero => simp [crcBits]
  | succ n ih =>
    have hnext : ∀ i < n, (c >>> 1).getLsbD i = false := fun i hi => by
      rw [BitVec.getLsbD_ushiftRight]
      exact h _ (by omega)
    rw [crcBits, crcBit_of_clear (h 0 (by omega)), ih hnext, ← BitVec.shiftRight_add, Nat.add_comm]

/-- Over eight bits the loop shifts the upper three bytes down, the low byte being 0. -/
theorem crcBits_eight_rest (c : Word) : crcBits 8 (c >>> 8 <<< 8) = c >>> 8 := by
  rw [crcBits_of_low_zero fun i hi => by simp [hi]]
  refine BitVec.eq_of_getLsbD_eq fun i _ => ?_
  by_cases h : 8 + i < 32
  · simp [h]
  · simp [h, BitVec.getLsbD_of_ge c (8 + i) (by omega)]

/-- A register value is the sum of its low byte and its upper three bytes. -/
theorem lowByte_xor_rest (c : Word) : (c.extractLsb' 0 8).setWidth 32 ^^^ (c >>> 8 <<< 8) = c := by
  refine BitVec.eq_of_getLsbD_eq fun i hi => ?_
  by_cases h8 : i < 8
  · simp [hi, h8]
  · simp [hi, h8, show 8 + (i - 8) = i by omega]

theorem setWidth_byte_ushiftRight_eight (b : Byte) : b.setWidth 32 >>> 8 = 0#32 :=
  BitVec.eq_of_getLsbD_eq fun i _ => by simp

/-- By linearity the loop acts on the low byte, which is the table entry, and on the rest, which it only shifts. -/
theorem crcTableByte_eq_crcByte : crcTableByte = crcByte := by
  funext c b
  calc crcTableByte c b
    _ = crcTable ((c ^^^ b.setWidth 32).extractLsb' 0 8) ^^^ (c ^^^ b.setWidth 32) >>> 8 := by
      rw [crcTableByte, BitVec.ushiftRight_xor_distrib, setWidth_byte_ushiftRight_eight, BitVec.xor_zero]
    _ = crcByte c b := by
      rw [crcTable, ← crcBits_eight_rest, ← crcBits_xor, lowByte_xor_rest, crcByte]

/-- Settles O4: the two forms take the same step on every byte; the five entries are computed. -/
theorem crcTableFormAgrees : Obligations.CrcTableFormAgrees := by
  refine ⟨fun s => ?_, by decide⟩
  rw [crc32ByTable, crcTableByte_eq_crcByte]
  rfl

/-! The loop takes no register value other than 0 to 0: the generator's constant term, its bit 31,
keeps the bit that fell out. -/

@[simp] theorem crcBit_eq_zero_iff (c : Word) : crcBit c = 0#32 ↔ c = 0#32 := by
  refine ⟨fun h => ?_, by rintro rfl; rfl⟩
  have htop : (crcBit c).getLsbD 31 = c.getLsbD 0 := by
    rw [crcBit_eq_xor]
    cases c.getLsbD 0 <;> simp [crcFeedback]
  have hlow : c.getLsbD 0 = false := by
    rw [← htop, h]
    rfl
  have hrest : c >>> 1 = 0#32 := crcBit_of_clear hlow ▸ h
  refine BitVec.eq_of_getLsbD_eq fun i _ => ?_
  cases i with
  | zero => exact hlow
  | succ i =>
    have := congrArg (·.getLsbD i) hrest
    simpa [Nat.add_comm] using this

@[simp] theorem crcBits_eq_zero_iff (n : Nat) (c : Word) : crcBits n c = 0#32 ↔ c = 0#32 := by
  induction n generalizing c with
  | zero => rfl
  | succ n ih => rw [crcBits, ih, crcBit_eq_zero_iff]

@[simp] theorem crcByte_eq_zero_iff (c : Word) (b : Byte) : crcByte c b = 0#32 ↔ c = b.setWidth 32 := by
  rw [crcByte, crcBits_eq_zero_iff, BitVec.xor_eq_zero_iff]

/-- A register value other than 0 stays so over zero bytes. -/
theorem crcLoop_replicate_zero_ne_zero {c : Word} (hc : c ≠ 0#32) (n : Nat) :
    crcLoop c (List.replicate n 0#8) ≠ 0#32 := by
  induction n generalizing c with
  | zero => exact hc
  | succ n ih => exact ih (by simpa using hc)

/-! One flipped bit. -/

@[simp] theorem flipBit_length (p : Bytes) (k : Nat) : (flipBit p k).length = p.length := by simp [flipBit]

theorem flipBit_cons_of_lt {k : Nat} (h : k < 8) (b : Byte) (p : Bytes) :
    flipBit (b :: p) k = (b ^^^ (1#8 <<< k)) :: p := by
  simp [flipBit, Nat.div_eq_of_lt h, Nat.mod_eq_of_lt h]

theorem flipBit_cons_add_eight (k : Nat) (b : Byte) (p : Bytes) : flipBit (b :: p) (k + 8) = b :: flipBit p k := by
  simp [flipBit]

theorem xorBytes_self (p : Bytes) : xorBytes p p = List.replicate p.length 0#8 := by
  induction p with
  | nil => rfl
  | cons b p ih => rw [xorBytes_cons, BitVec.xor_self, ih, List.length_cons, List.replicate_succ]

/-- Flipping one bit of a sequence gives a difference with just that bit set. -/
theorem xorBytes_flipBit (p : Bytes) (k : Nat) :
    xorBytes (flipBit p k) p = flipBit (List.replicate p.length 0#8) k := by
  induction p generalizing k with
  | nil => simp [flipBit, xorBytes]
  | cons b p ih =>
    rw [List.length_cons, List.replicate_succ]
    rcases Nat.lt_or_ge k 8 with hk | hk
    · rw [flipBit_cons_of_lt hk, flipBit_cons_of_lt hk, xorBytes_cons, xorBytes_self, xor_xor_cancel_comm,
        BitVec.zero_xor]
    · obtain ⟨j, rfl⟩ := Nat.exists_eq_add_of_le' hk
      rw [flipBit_cons_add_eight, flipBit_cons_add_eight, xorBytes_cons, ih, BitVec.xor_self]

theorem crc0_flipBit_replicate_ne_zero {n k : Nat} (h : k < 8 * n) :
    crc0 (flipBit (List.replicate n 0#8) k) ≠ 0#32 := by
  induction n generalizing k with
  | zero => omega
  | succ n ih =>
    rw [List.replicate_succ]
    rcases Nat.lt_or_ge k 8 with hk | hk
    · rw [flipBit_cons_of_lt hk]
      refine crcLoop_replicate_zero_ne_zero ?_ n
      have hbyte : ∀ j < 8, crcByte 0#32 (0#8 ^^^ (1#8 <<< j)) ≠ 0#32 := by decide
      exact hbyte k hk
    · obtain ⟨j, rfl⟩ := Nat.exists_eq_add_of_le' hk
      rw [flipBit_cons_add_eight]
      exact ih (by omega)

theorem crc32_flipBit_ne {p : Bytes} {k : Nat} (h : k < 8 * p.length) : crc32 (flipBit p k) ≠ crc32 p := by
  rw [ne_eq, ← BitVec.xor_eq_zero_iff, crc32_xor_crc32 (flipBit_length p k), xorBytes_flipBit]
  exact crc0_flipBit_replicate_ne_zero h

/-- Settles O5: the loop is linear, and it takes a register value other than 0 to another such value. -/
theorem crcOfDifference : Obligations.CrcOfDifference :=
  ⟨fun _ _ => crc32_xor_crc32, fun _ _ => crc0_flipBit_replicate_ne_zero, fun _ _ => crc32_flipBit_ne⟩

/-! ## The CRC command (40_crc.md R125) -/

/-- The input operation of a command that reads all of its input. -/
theorem withInput_of_inputIs {s : State} {p : Bytes} (k : Bytes → Result) (h : s.inputIs p) :
    withInput s 0 s.inLen k = k p :=
  withInput_of_slice k ((Memory.slice_eq_some_iff _ _ _ _).2 h)

/-- Settles O9, by the input operation on bytes that are there and on a missing byte. -/
theorem crcCommandResult : Obligations.CrcCommandResult :=
  ⟨rfl, fun _ => ⟨fun _ => withInput_of_inputIs _, withInput_of_lacks _⟩⟩

end Sys2Proof.Machine

namespace Sys2Proof.Machine

/-! ## One flipped bit of a Wire Unit (41_packet.md R146) -/

/-- `be32` gives back the four bytes that `be32dec` has joined (R13). -/
theorem be32_be32dec {t : Bytes} (h : t.length = 4) : be32 (be32dec t) = t := by
  obtain ⟨a, b, c, d, rfl⟩ := List.length_eq_four.1 h
  have ha : (a ++ b ++ c ++ d).extractLsb' 24 8 = a := by
    rw [BitVec.extractLsb'_append_eq_of_le (by decide), BitVec.extractLsb'_append_eq_of_le (by decide)]
    exact BitVec.extractLsb'_append_eq_left
  have hb : (a ++ b ++ c ++ d).extractLsb' 16 8 = b := by
    rw [BitVec.extractLsb'_append_eq_of_le (by decide), BitVec.extractLsb'_append_eq_of_le (by decide)]
    exact BitVec.extractLsb'_append_eq_right
  have hc : (a ++ b ++ c ++ d).extractLsb' 8 8 = c := by
    rw [BitVec.extractLsb'_append_eq_of_le (by decide)]
    exact BitVec.extractLsb'_append_eq_right
  have hd : (a ++ b ++ c ++ d).extractLsb' 0 8 = d := BitVec.extractLsb'_append_eq_right
  rw [be32dec_four, be32, ha, hb, hc, hd]

theorem flipBit_append_of_lt {p : Bytes} {k : Nat} (h : k < 8 * p.length) (q : Bytes) :
    flipBit (p ++ q) k = flipBit p k ++ q := by
  induction p generalizing k with
  | nil => cases h
  | cons b p ih =>
    rcases Nat.lt_or_ge k 8 with hk | hk
    · simp only [List.cons_append, flipBit_cons_of_lt hk]
    · obtain ⟨j, rfl⟩ := Nat.exists_eq_add_of_le' hk
      rw [List.length_cons] at h
      rw [List.cons_append, flipBit_cons_add_eight, ih (by omega), flipBit_cons_add_eight, List.cons_append]

theorem flipBit_append_add_length (p q : Bytes) (k : Nat) :
    flipBit (p ++ q) (k + 8 * p.length) = p ++ flipBit q k := by
  induction p with
  | nil => rfl
  | cons b p ih =>
    rw [List.length_cons, Nat.mul_succ, ← Nat.add_assoc, List.cons_append, flipBit_cons_add_eight, ih, List.cons_append]

theorem flipBit_ne {p : Bytes} {k : Nat} (h : k < 8 * p.length) : flipBit p k ≠ p :=
  fun e => crc32_flipBit_ne h (congrArg crc32 e)

/-- The four bytes of a trailer can be read off its value, so a flipped bit changes the value. -/
theorem be32dec_flipBit_ne {t : Bytes} {k : Nat} (ht : t.length = 4) (h : k < 8 * t.length) :
    be32dec (flipBit t k) ≠ be32dec t := by
  intro e
  have hbytes := congrArg be32 e
  rw [be32_be32dec ht, be32_be32dec ((flipBit_length t k).trans ht)] at hbytes
  exact flipBit_ne h hbytes

/-- A flipped payload bit changes `computed` and leaves `expected`. -/
theorem verifyPacket_flipBit_payload {p : Bytes} {k : Nat} (h : k < 8 * p.length) :
    verifyPacket (flipBit (appendCRC p) k) =
      { payload := flipBit p k, ok := false, short := false, expected := crc32 p, computed := crc32 (flipBit p k) } := by
  rw [appendCRC, flipBit_append_of_lt h, verifyPacket_append _ _ (be32_length _), be32dec_be32,
    beq_eq_false_iff_ne.2 (crc32_flipBit_ne h)]

/-- A flipped trailer bit changes `expected` and leaves `computed`. -/
theorem verifyPacket_flipBit_trailer (p : Bytes) {j : Nat} (h : j < 32) :
    be32dec (flipBit (be32 (crc32 p)) j) ≠ crc32 p ∧
    verifyPacket (flipBit (appendCRC p) (j + 8 * p.length)) =
      { payload := p, ok := false, short := false, expected := be32dec (flipBit (be32 (crc32 p)) j),
        computed := crc32 p } := by
  have hne : be32dec (flipBit (be32 (crc32 p)) j) ≠ crc32 p := by
    simpa using be32dec_flipBit_ne (be32_length (crc32 p)) h
  refine ⟨hne, ?_⟩
  rw [appendCRC, flipBit_append_add_length, verifyPacket_append _ _ (flipBit_length _ _), beq_eq_false_iff_ne.2 hne.symm]

/-- Settles O6: the flipped bit stands in the payload, whose CRC changes, or in the trailer, whose value changes. -/
theorem singleBitErrorsAreDetected : Obligations.SingleBitErrorsAreDetected := by
  intro p k hk
  rw [appendCRC_length] at hk
  rcases Nat.lt_or_ge k (8 * p.length) with hp | hp
  · rw [verifyPacket_flipBit_payload hp]
    exact ⟨rfl, fun _ => ⟨crc32_flipBit_ne hp, rfl⟩, fun h => absurd hp (Nat.not_lt.2 h)⟩
  · obtain ⟨j, rfl⟩ := Nat.exists_eq_add_of_le' hp
    obtain ⟨hne, hverify⟩ := verifyPacket_flipBit_trailer p (j := j) (by omega)
    rw [hverify]
    exact ⟨rfl, fun h => absurd h (Nat.not_lt.2 hp), fun _ => ⟨rfl, hne⟩⟩

/-! ## The commands APPEND and VERIFY (41_packet.md R143 to R145) -/

section
variable {c : Prop} [Decidable c] {s : State} {o : Result} {k : Bytes → Result}

/-- A command that makes one check and then reads all of its input, on written input. -/
theorem checked_withInput_of_inputIs (hc : ¬ c) {p : Bytes} (h : s.inputIs p) :
    (if c then o else withInput s 0 s.inLen k) = k p :=
  (if_neg hc).trans (withInput_of_inputIs k h)

/-- A command that makes one check and then reads all of its input, on an unwritten byte. -/
theorem checked_withInput_of_lacks (hc : ¬ c) (h : s.inLacks 0 s.inLen) :
    (if c then o else withInput s 0 s.inLen k) = .fault .unwrittenInput :=
  (if_neg hc).trans (withInput_of_lacks k h)

end

theorem execAppend_of_inputIs {s : State} {p : Bytes} (hfits : s.inLen + 4 ≤ s.params.bufSize) (h : s.inputIs p) :
    execAppend s = .next (complete .none { outSeq := p ++ be32 (crc32 p), crcRes := crc32 p } s) :=
  checked_withInput_of_inputIs (Nat.not_lt.2 hfits) h

theorem execVerify_of_inputIs {s : State} {p t : Bytes} (ht : t.length = 4) (h : s.inputIs (p ++ t)) :
    execVerify s = .next (complete (if crc32 p = be32dec t then .none else .corruptCrc)
      { outSeq := p, crcRes := crc32 p, crcExp := be32dec t } s) := by
  have hlong : ¬ s.inLen < 4 := by
    rw [← h.1, List.length_append]
    omega
  rw [execVerify, checked_withInput_of_inputIs hlong h, verifyPacket_append p t ht]
  simp only [beq_iff_eq]

/-- Settles O10, by the capacity check and then by what the input operation finds. -/
theorem appendCommandResult : Obligations.AppendCommandResult :=
  ⟨decode_encode .append, fun _ => ⟨fun hfull => if_pos hfull, fun hfits =>
    ⟨fun _ => execAppend_of_inputIs hfits, checked_withInput_of_lacks (Nat.not_lt.2 hfits)⟩⟩⟩

/-- Settles O11, by the length check and then by what the input operation finds. -/
theorem verifyCommandResult : Obligations.VerifyCommandResult :=
  ⟨decode_encode .verify, fun _ => ⟨fun hshort => if_pos hshort, fun hlong =>
    ⟨fun _ _ => execVerify_of_inputIs, checked_withInput_of_lacks (Nat.not_lt.2 hlong)⟩⟩⟩

/-- Settles O7: an APPEND that ended with NONE has passed its capacity check, so its OUT is `p` and the trailer of `p`,
which VERIFY decodes to the CRC that it computes. -/
theorem appendThenVerifyRoundTrips : Obligations.AppendThenVerifyRoundTrips := by
  refine ⟨fun p => ?_, fun s t u p hs happend hnone hlen hholds => ?_⟩
  · rw [appendCRC, verifyPacket_append _ _ (be32_length _), be32dec_be32, beq_self_eq_true]
  · have hout : t.outSeq = p ++ be32 (crc32 p) := by
      rcases execAppend_next happend with ⟨-, rfl⟩ | ⟨hfits, -⟩
      · cases hnone
      · cases (execAppend_of_inputIs (Nat.not_lt.1 hfits) hs).symm.trans happend
        rfl
    rw [hout] at hlen hholds
    exact ⟨_, execVerify_of_inputIs (be32_length _) ⟨hlen.symm, hholds⟩, if_pos (be32dec_be32 _).symm, rfl⟩

end Sys2Proof.Machine

namespace Sys2Proof.Machine

/-! ## Frames (42_frame.md R160, R161, R166) -/

theorem frameDecode_of_short {s : Bytes} (h : s.length < 4) (eos : Bool) (maxPkt : Nat) :
    frameDecode s eos maxPkt = if eos then .truncPrefix else .incomplete none := if_pos h

theorem frameDecode_of_long {s : Bytes} (h : 4 ≤ s.length) (eos : Bool) (maxPkt : Nat) :
    frameDecode s eos maxPkt = frameDecodeBody s eos maxPkt (be32dec (s.take 4)).toNat := if_neg (Nat.not_lt.2 h)

/-- The first four bytes of a Frame are the length of its Wire Unit, inside the domain of frameEncode (R160). -/
theorem be32dec_take_frameEncode {w : Bytes} (hw : w.length < 2 ^ 32) (t : Bytes) :
    (be32dec ((frameEncode w ++ t).take 4)).toNat = w.length := by
  rw [take_frameEncode, be32dec_be32, BitVec.toNat_ofNat, Nat.mod_eq_of_lt hw]

/-- Settles O8: the first four bytes give the length, which is in bounds, and that many bytes follow them. -/
theorem frameDecodeInvertsEncode : Obligations.FrameDecodeInvertsEncode := by
  intro w t eos maxPkt hw hmax
  have hlen : (frameEncode w ++ t).length = w.length + 4 + t.length := by rw [List.length_append, frameEncode_length]
  rw [frameDecode_of_long (by omega), be32dec_take_frameEncode hw, frameDecodeBody, if_neg (by omega),
    if_neg (by omega), drop_frameEncode, List.take_left]

/-! ## The commands FENC and SEND (42_frame.md R162, R164, R169) -/

theorem execFenc_of_inputIs {s : State} {w : Bytes} (hfits : s.inLen + 4 ≤ s.params.bufSize) (h : s.inputIs w) :
    execFenc s = .next (complete .none { outSeq := frameEncode w, frameLen := BitVec.ofNat 32 w.length } s) := by
  rw [execFenc, checked_withInput_of_inputIs (Nat.not_lt.2 hfits) h, h.1]

theorem execSend_of_inputIs {s : State} {p : Bytes} (hfits : s.inLen ≤ s.maxPkt) (h : s.inputIs p) :
    execSend s = .next (complete .none
      { outSeq := frameEncode (appendCRC p), crcRes := crc32 p, frameLen := BitVec.ofNat 32 (p.length + 4) } s) := by
  rw [execSend, checked_withInput_of_inputIs (Nat.not_lt.2 hfits) h, h.1]

/-- The Frame that SEND builds, written out (R164). -/
theorem frameEncode_appendCRC (p : Bytes) :
    frameEncode (appendCRC p) = be32 (BitVec.ofNat 32 (p.length + 4)) ++ (p ++ be32 (crc32 p)) := by
  rw [frameEncode, appendCRC_length, appendCRC]

/-- Settles O12, by the capacity check and then by what the input operation finds. -/
theorem fencCommandResult : Obligations.FencCommandResult :=
  ⟨decode_encode .fenc, fun _ => ⟨fun hfull => if_pos hfull, fun hfits =>
    ⟨fun _ => execFenc_of_inputIs hfits, checked_withInput_of_lacks (Nat.not_lt.2 hfits)⟩⟩⟩

/-- Settles O14, by the size check and then by what the input operation finds. -/
theorem sendCommandResult : Obligations.SendCommandResult :=
  ⟨decode_encode .send, fun _ => ⟨fun hover => if_pos hover, fun hfits =>
    ⟨fun p hp => frameEncode_appendCRC p ▸ execSend_of_inputIs hfits hp,
      checked_withInput_of_lacks (Nat.not_lt.2 hfits)⟩⟩⟩

/-- What FENC and SEND write with NONE is a Frame, its Wire Unit inside the domain of frameEncode. -/
theorem outSeq_eq_frameEncode {i : Instr} {s t : State} (hi : i ∈ [.fenc, .send]) (hinv : s.Inv)
    (h : exec i s = .next t) (hnone : t.cause = .none) : ∃ w, w.length < 2 ^ 32 ∧ t.outSeq = frameEncode w := by
  obtain ⟨⟨-, hbuf, -⟩, hin, -⟩ := hinv
  simp only [List.mem_cons, List.not_mem_nil, or_false] at hi
  rcases hi with rfl | rfl
  · rcases execFenc_next h with ⟨-, rfl⟩ | ⟨-, w, hw, rfl⟩
    · cases hnone
    · have hlen := Memory.slice_length hw
      exact ⟨w, by omega, rfl⟩
  · rcases execSend_next h with ⟨-, rfl⟩ | ⟨-, p, hp, rfl⟩
    · cases hnone
    · have hlen := Memory.slice_length hp
      exact ⟨appendCRC p, by rw [appendCRC_length]; omega, rfl⟩

/-- Settles O24: the OUT is a Frame, whose first four bytes are the length of its Wire Unit. -/
theorem prefixCountsTheWireUnit : Obligations.PrefixCountsTheWireUnit := by
  intro i s t hi hinv h hnone
  obtain ⟨w, hw, hout⟩ := outSeq_eq_frameEncode hi hinv h hnone
  have hprefix := be32dec_take_frameEncode hw []
  rw [List.append_nil] at hprefix
  rw [hout, hprefix, frameEncode_length]
  omega

/-! ## RECV and RECV.EOS, row by row (42_frame.md R163) -/

/-- The two RECV commands are one function of the EOS bit. -/
theorem exec_recvForms {i : Instr} {eos : Bool} (h : (i, eos) ∈ recvForms) (s : State) :
    exec i s = recvFrame eos s := by
  simp only [recvForms, List.mem_cons, List.not_mem_nil, or_false, Prod.mk.injEq] at h
  rcases h with ⟨rfl, rfl⟩ | ⟨rfl, rfl⟩ <;> rfl

/-- The completion that the table of R163 gives for an outcome of frameDecode. -/
def recvCompletion (o : FrameOutcome) (s : State) : State := complete (recvRecord o).1 (recvRecord o).2 s

section
variable {eos : Bool} {len : Word} {s : State}

/-- The input operation on bytes that IN holds. -/
theorem withInput_of_inHolds {a n : Nat} {p : Bytes} (k : Bytes → Result) (hn : p.length = n) (h : s.inHolds a p) :
    withInput s a n k = k p :=
  withInput_of_slice k ((Memory.slice_eq_some_iff _ _ _ _).2 ⟨hn, h⟩)

theorem recvFrame_of_inHolds (h4 : 4 ≤ s.inLen) {h : Bytes} (hh : h.length = 4) (hp : s.inHolds 0 h) :
    recvFrame eos s = recvBody eos (be32dec h) s :=
  (if_neg (Nat.not_lt.2 h4)).trans (withInput_of_inHolds _ hh hp)

theorem recvFrame_of_lacks (h4 : 4 ≤ s.inLen) (h : s.inLacks 0 4) : recvFrame eos s = .fault .unwrittenInput :=
  (if_neg (Nat.not_lt.2 h4)).trans (withInput_of_lacks _ h)

theorem recvBody_of_missing (hfits : len.toNat ≤ s.maxPkt + 4) (hmissing : s.inLen - 4 < len.toNat) :
    recvBody eos len s = .next (complete (if eos then .truncBody else .incomplete) { frameLen := len } s) :=
  (if_neg (Nat.not_lt.2 hfits)).trans (if_pos hmissing)

/-- RECV once the whole body has been received. -/
theorem recvBody_of_received (hfits : len.toNat ≤ s.maxPkt + 4) (hthere : len.toNat ≤ s.inLen - 4) :
    recvBody eos len s = withInput s 4 len.toNat fun w => recvVerdict len w s :=
  (if_neg (Nat.not_lt.2 hfits)).trans (if_neg (Nat.not_lt.2 hthere))

theorem recvVerdict_of_short {w : Bytes} (h : w.length < 4) :
    recvVerdict len w s = .next (complete .corruptShort { frameLen := len, consumed := 4 + len.toNat } s) :=
  if_pos (verifyPacket_short h)

theorem recvVerdict_append {p t : Bytes} (ht : t.length = 4) :
    recvVerdict len (p ++ t) s = .next (complete (if crc32 p = be32dec t then .none else .corruptCrc)
      { outSeq := p, crcRes := crc32 p, crcExp := be32dec t, frameLen := len, consumed := 4 + len.toNat } s) := by
  rw [recvVerdict, verifyPacket_append p t ht]
  simp only [beq_iff_eq, Bool.false_eq_true, if_false]

end

/-- Settles O13, down the rows of the table of R163. -/
theorem recvCommandResult : Obligations.RecvCommandResult := by
  refine ⟨decode_encode .recv, decode_encode .recvEos, fun i eos hi s => ?_⟩
  rw [exec_recvForms hi]
  refine ⟨fun hshort => if_pos hshort, recvFrame_of_lacks, fun hlong h hh hprefix => ?_⟩
  rw [recvFrame_of_inHolds hlong hh hprefix]
  refine ⟨fun hover => if_pos hover, recvBody_of_missing, fun hfits hthere => ?_⟩
  rw [recvBody_of_received hfits hthere]
  refine ⟨withInput_of_lacks _, fun w hw hshort hbody => ?_, fun p t ht hw hbody => ?_⟩
  · rw [withInput_of_inHolds _ hw hbody, recvVerdict_of_short hshort, hw]
  · rw [withInput_of_inHolds _ hw hbody, recvVerdict_append ht, hw]

/-! ## RECV as frameDecode followed by verifyPacket (42_frame.md R161, R163, R167, R168) -/

/-- The verdict on a whole Frame is the table's row for it. -/
theorem recvVerdict_eq_recvCompletion (len : Word) (w : Bytes) (s : State) :
    recvVerdict len w s = .next (recvCompletion (.frame len.toNat w (4 + len.toNat)) s) := by
  simp only [recvVerdict, recvCompletion, recvRecord, BitVec.ofNat_toNat, BitVec.setWidth_eq]
  split <;> rfl

/-- Part of a written input is held where it stands. -/
theorem part_of_inputIs {s : State} {p : Bytes} (h : s.inputIs p) {a n : Nat} (hn : a + n ≤ p.length) :
    ((p.drop a).take n).length = n ∧ s.inHolds a ((p.drop a).take n) := by
  have hlen : ((p.drop a).take n).length = n := by rw [List.length_take, List.length_drop]; omega
  refine ⟨hlen, fun i hi => ?_⟩
  have hread := h.2 (a + i) (by omega)
  rw [Nat.zero_add] at hread
  rw [hread, List.getElem?_take_of_lt (by omega), List.getElem?_drop]

/-- From the decoded length on, RECV ends with the table's row for the outcome of frameDecode. -/
theorem recvBody_eq_recvCompletion {s : State} {p : Bytes} (h : s.inputIs p) (h4 : 4 ≤ p.length) (eos : Bool)
    (len : Word) :
    recvBody eos len s = .next (recvCompletion (frameDecodeBody p eos s.maxPkt len.toNat) s) := by
  by_cases hover : len.toNat > s.maxPkt + 4
  · simp [recvBody, frameDecodeBody, recvCompletion, recvRecord, hover]
  by_cases hmissing : s.inLen - 4 < len.toNat
  · cases eos <;> simp [recvBody, frameDecodeBody, recvCompletion, recvRecord, hover, hmissing, h.1]
  · obtain ⟨hw, hbody⟩ := part_of_inputIs h (a := 4) (n := len.toNat) (by omega)
    rw [recvBody_of_received (by omega) (by omega), withInput_of_inHolds _ hw hbody, recvVerdict_eq_recvCompletion,
      frameDecodeBody, if_neg hover, h.1, if_neg hmissing]

/-- RECV on written input ends with the table's row for the outcome of frameDecode. -/
theorem recvFrame_eq_recvCompletion {s : State} {p : Bytes} (h : s.inputIs p) (eos : Bool) :
    recvFrame eos s = .next (recvCompletion (frameDecode p eos s.maxPkt) s) := by
  rcases Nat.lt_or_ge p.length 4 with hshort | hlong
  · rw [recvFrame, ← h.1, if_pos hshort, frameDecode_of_short hshort]
    cases eos <;> rfl
  · obtain ⟨hlen, hprefix⟩ := part_of_inputIs h (a := 0) (n := 4) (by omega)
    rw [recvFrame_of_inHolds (h.1 ▸ hlong) hlen hprefix, recvBody_eq_recvCompletion h hlong, frameDecode_of_long hlong,
      List.drop_zero]

/-- Settles O21: the two forms of RECV are one function of the EOS bit. -/
theorem recvIsFrameDecodeThenVerify : Obligations.RecvIsFrameDecodeThenVerify := by
  intro i eos s p hi hp
  rw [exec_recvForms hi]
  exact recvFrame_eq_recvCompletion hp eos

/-- What RECV can end with, when it does not meet an unwritten byte. -/
inductive RecvEnd (eos : Bool) (s : State) : State → Prop
  /-- The four bytes of the length are not all there. -/
  | noPrefix (h : s.inLen < 4) : RecvEnd eos s (complete (if eos then .truncPrefix else .incomplete) {} s)
  /-- The length is above the bound. -/
  | tooLong (len : Word) (hover : s.maxPkt + 4 < len.toNat) :
      RecvEnd eos s (complete .frameTooLong { frameLen := len } s)
  /-- The body is not all there. -/
  | noBody (len : Word) (h4 : 4 ≤ s.inLen) (hfits : len.toNat ≤ s.maxPkt + 4) (hmissing : s.inLen - 4 < len.toNat) :
      RecvEnd eos s (complete (if eos then .truncBody else .incomplete) { frameLen := len } s)
  /-- The Frame is whole and has been verified. -/
  | whole (len : Word) (w : Bytes) (hw : w.length = len.toNat) (hfits : len.toNat ≤ s.maxPkt + 4)
      (hthere : len.toNat ≤ s.inLen - 4) : RecvEnd eos s (recvCompletion (.frame len.toNat w (4 + len.toNat)) s)

/-- Everything that RECV can end with. -/
theorem recvFrame_next {eos : Bool} {s t : State} (h : recvFrame eos s = .next t) : RecvEnd eos s t := by
  unfold recvFrame at h
  split at h
  next hshort =>
    cases h
    exact .noPrefix hshort
  next hlong =>
    obtain ⟨p, -, h⟩ := withInput_next h
    unfold recvBody at h
    split at h
    next hover =>
      cases h
      exact .tooLong _ hover
    next hfits =>
      split at h
      next hmissing =>
        cases h
        exact .noBody _ (by omega) (by omega) hmissing
      next hthere =>
        obtain ⟨w, hw, h⟩ := withInput_next h
        rw [recvVerdict_eq_recvCompletion] at h
        cases h
        exact .whole _ w (Memory.slice_length hw) (by omega) (by omega)

/-- A whole Frame is not waited for. -/
theorem recvCompletion_frame_cause_ne (len : Nat) (w : Bytes) (n : Nat) (s : State) :
    (recvCompletion (.frame len w n) s).cause ≠ .incomplete := by
  simp only [recvCompletion, complete_cause, recvRecord]
  split
  · simp
  · cases (verifyPacket w).ok <;> simp

/-- A RECV that ends with INCOMPLETE has consumed nothing, and if its four length bytes were there, the input is shorter
than the longest Frame in bounds. -/
theorem recv_incomplete {s t : State} (h : exec .recv s = .next t) (hc : t.cause = .incomplete) :
    t.consumed = 0 ∧ (4 ≤ s.inLen → s.inLen < s.maxPkt + 8) := by
  cases recvFrame_next (eos := false) h with
  | noPrefix hshort => exact ⟨rfl, fun h4 => absurd hshort (Nat.not_lt.2 h4)⟩
  | tooLong len => cases hc
  | noBody len h4 hfits hmissing => exact ⟨rfl, fun _ => by omega⟩
  | whole len w => exact absurd hc (recvCompletion_frame_cause_ne _ _ _ _)

/-- Settles O25: a full buffer has room for the longest Frame in bounds (R34). -/
theorem fullBufferIsNeverIncomplete : Obligations.FullBufferIsNeverIncomplete := by
  intro s t hinv hfull h hc
  obtain ⟨⟨hbuf, -⟩, -, hmax, -⟩ := hinv
  have hroom := (recv_incomplete h hc).2 (by omega)
  omega

theorem recvRecord_frameDecodeBody_frameLen (s : Bytes) (eos : Bool) (maxPkt len : Nat) :
    (recvRecord (frameDecodeBody s eos maxPkt len)).2.frameLen = BitVec.ofNat 32 len := by
  unfold frameDecodeBody
  split
  · rfl
  · split
    · cases eos <;> rfl
    · simp only [recvRecord]
      split <;> rfl

/-- With its four bytes there, FRAME_LEN is the received length, whatever the outcome. -/
theorem recvCompletion_frameLen {p : Bytes} (h4 : 4 ≤ p.length) (eos : Bool) (maxPkt : Nat) (s : State) :
    (recvCompletion (frameDecode p eos maxPkt) s).frameLen = be32dec (p.take 4) := by
  rw [recvCompletion, complete_frameLen, frameDecode_of_long h4, recvRecord_frameDecodeBody_frameLen,
    BitVec.ofNat_toNat, BitVec.setWidth_eq]

/-- Settles O22: both RECVs end as frameDecode of their input says, and their inputs begin with the same four bytes. -/
theorem shortReadsResume : Obligations.ShortReadsResume := by
  intro s t h hc
  obtain ⟨k, r, rfl, -⟩ := exec_next (by decide) h
  refine ⟨rfl, rfl, rfl, (recv_incomplete h hc).1, fun p i eos u more hp hi hmax hu => ?_⟩
  refine ⟨_, recvIsFrameDecodeThenVerify i eos u _ hi hu, by rw [hmax], fun h4 => ?_⟩
  have hfirst : complete k r s = recvCompletion (frameDecode p false s.maxPkt) s :=
    Host.Outcome.next.inj (h.symm.trans (recvFrame_eq_recvCompletion hp false))
  calc (recvCompletion (frameDecode (p ++ more) eos u.maxPkt) u).frameLen
    _ = be32dec ((p ++ more).take 4) := recvCompletion_frameLen (by rw [List.length_append]; omega) _ _ _
    _ = be32dec (p.take 4) := by rw [List.take_append_of_le_length h4]
    _ = (complete k r s).frameLen := by rw [hfirst, recvCompletion_frameLen h4]

/-- What a SEND of `p` has written when it ended with NONE. -/
theorem send_outSeq {s t : State} {p : Bytes} (hp : s.inputIs p) (h : exec .send s = .next t)
    (hnone : t.cause = .none) : p.length ≤ s.maxPkt ∧ t.outSeq = frameEncode (appendCRC p) := by
  rcases execSend_next h with ⟨-, rfl⟩ | ⟨hfits, -⟩
  · cases hnone
  · cases (execSend_of_inputIs (Nat.not_lt.1 hfits) hp).symm.trans h
    exact ⟨hp.1 ▸ Nat.not_lt.1 hfits, rfl⟩

/-- A whole Frame whose Wire Unit carries the right CRC ends with NONE and its payload. -/
theorem recvCompletion_frame_appendCRC (len : Nat) (p : Bytes) (n : Nat) (s : State) :
    recvCompletion (.frame len (appendCRC p) n) s = complete .none
      { outSeq := p, crcRes := crc32 p, crcExp := crc32 p, frameLen := BitVec.ofNat 32 len, consumed := n } s := by
  simp only [recvCompletion, recvRecord, appendThenVerifyRoundTrips.1 p, Bool.false_eq_true, if_false, if_true]

/-- Settles O23: OUT of the SEND is a Frame that RECV decodes, and its Wire Unit one that verifyPacket accepts. -/
theorem sendThenRecvRoundTrips : Obligations.SendThenRecvRoundTrips := by
  intro s t u p hinv hp hsend hnone hmax hlen hholds i eos hi
  obtain ⟨hfits, hout⟩ := send_outSeq hp hsend hnone
  have hsmall : (appendCRC p).length < 2 ^ 32 := by
    obtain ⟨⟨-, hbuf, -⟩, -, hpkt, -⟩ := hinv
    rw [appendCRC_length]
    omega
  have hdecode := frameDecodeInvertsEncode (appendCRC p) [] eos u.maxPkt hsmall
    (by rw [appendCRC_length, hmax]; omega)
  rw [List.append_nil, ← hout] at hdecode
  have hrecv := recvFrame_eq_recvCompletion ⟨hlen.symm, hholds⟩ eos
  rw [hdecode, recvCompletion_frame_appendCRC, ← exec_recvForms hi, appendCRC_length] at hrecv
  exact ⟨_, hrecv, rfl, rfl, rfl, Nat.add_comm 4 (p.length + 4)⟩

end Sys2Proof.Machine

/-! ## The end of a command (43_control.md R193) -/

namespace Sys2Proof.Machine

/-- Settles O16: a next state of a command is a completion of the state it ran in, and a completion leaves BUSY = 0, with
which OUT_LEN reads exactly. -/
theorem everyCommandEndsInOneCompletion : Obligations.EveryCommandEndsInOneCompletion := by
  refine ⟨fun _ _ _ => rfl, fun i s t hi h => ?_⟩
  obtain ⟨k, r, rfl, -⟩ := exec_next hi h
  exact ⟨rfl, freeWhileBusy_of_idle (complete_busy s k r) _ _⟩

/-! ## Writes to CMD (43_control.md R190, R191, R194, R195) -/

/-- A word that the engine runs decodes to a command other than SRESET (R191, R192). -/
theorem decode_of_runnableWord {c : Word} (h : runnableWord c = true) : ∃ i, decode c = .ok i ∧ i ≠ .sreset := by
  simp only [runnableWord, Bool.and_eq_true, bne_iff_ne] at h
  obtain ⟨hlegal, hne⟩ := h
  obtain ⟨i, hi⟩ := decode_of_legalWord hlegal
  refine ⟨i, hi, ?_⟩
  rintro rfl
  exact hne (eq_encode_of_decode hi)

/-- The SRESET word resets the block. -/
theorem writeCmd_sreset (s : State) : writeCmd 0x0000000F#32 s = .next (resetBlock s) := rfl

/-- An illegal word is rejected (R194). -/
theorem writeCmd_of_illegal {c : Word} (h : legalWord c = false) (s : State) :
    writeCmd c s = .next (rejectIllegal s) := by
  cases hd : decode c with
  | error e => simp only [writeCmd, hd]
  | ok i => simp [(exists_decode_iff_legalWord c).1 ⟨i, hd⟩] at h

/-- A word that the engine runs is accepted (R191). -/
theorem writeCmd_of_runnable {c : Word} (h : runnableWord c = true) (s : State) :
    writeCmd c s = .next (accept c s) := by
  obtain ⟨i, hd, hi⟩ := decode_of_runnableWord h
  unfold writeCmd
  split
  next hs => exact absurd (Except.ok.inj (hd.symm.trans hs)) hi
  next => rfl
  next e he => cases hd.symm.trans he

/-- A CMD write that R69 does not refuse does what R190 says of its word. -/
theorem hostWrite_cmd {c : Word} {s : State} (h : s.busy = true → c = 0x0000000F#32) :
    hostWrite 0x004 .w4 c s = okayWrite (writeCmd c s) :=
  (hostWrite_reg .cmd c s).trans (writeTarget_performs rfl (by simpa [refusedWhileBusy] using h) rfl)

/-- A write of the SRESET word resets the block, BUSY or not (R195). -/
theorem hostWrite_sreset (s : State) :
    hostWrite 0x004 .w4 0x0000000F#32 s = .next (respond .okayWrite (resetBlock s)) := by
  rw [hostWrite_cmd fun _ => rfl, writeCmd_sreset, okayWrite]

/-- While BUSY = 1 a CMD write of any other word is refused (R69). -/
theorem hostWrite_cmd_refused {c : Word} {s : State} (hb : s.busy = true) (hc : c ≠ 0x0000000F#32) :
    hostWrite 0x004 .w4 c s = .next (busError (setAccErr s)) :=
  (hostWrite_reg .cmd c s).trans (writeTarget_refused rfl hb (bne_iff_ne.2 hc))

/-- Settles O35, down the four cases of R190. -/
theorem commandWordWrite : Obligations.CommandWordWrite := by
  intro s c
  split
  next hc =>
    rw [hc, hostWrite_sreset]
    rfl
  next hc =>
    split
    next hb => exact hostWrite_cmd_refused hb hc
    next hb =>
      rw [hostWrite_cmd fun h => absurd h hb]
      split
      next hl =>
        rw [writeCmd_of_illegal hl]
        rfl
      next hl =>
        have hrun : runnableWord c = true := by simp [runnableWord, hl, hc]
        rw [writeCmd_of_runnable hrun]
        rfl

/-- STATUS reads 0 after a reset (10_state.md R50). -/
theorem statusWord_resetBlock (s : State) : statusWord (resetBlock s) = 0#32 := by
  simp only [statusWord, fatal, resetBlock_busy, resetBlock_done, resetBlock_ok, resetBlock_accerr, resetBlock_cause]
  decide

/-- Settles O15: the command and the CMD write are one reset of the block. -/
theorem sresetCommandResult : Obligations.SresetCommandResult :=
  ⟨decode_encode .sreset, fun s => ⟨exec_sreset s, resetBlock s, exec_sreset s, statusWord_resetBlock s, rfl,
    fun _ => rfl, hostWrite_sreset s⟩⟩

/-! ## Writes to STATUS and IRQ_EN (43_control.md R197, R198) -/

/-- R69 guards no write to STATUS. -/
theorem hostWrite_status (v : Word) (s : State) :
    hostWrite 0x008 .w4 v s = .next (respond .okayWrite (writeStatus v s)) :=
  (hostWrite_reg .status v s).trans (writeTarget_performs rfl (fun h => nomatch h.2) rfl)

/-- R69 guards no write to IRQ_EN. -/
theorem hostWrite_irqEn (v : Word) (s : State) :
    hostWrite 0x028 .w4 v s = .next (respond .okayWrite (writeIrqEn v s)) :=
  (hostWrite_reg .irqEn v s).trans (writeTarget_performs rfl (fun h => nomatch h.2) rfl)

/-- A write-1-to-clear bit after a write of `b` to it (R31). -/
theorem and_not_eq_ite (a b : Bool) : (a && !b) = if b = true then false else a := by
  cases b <;> simp

/-- Settles O36: the two write-1-to-clear bits. -/
theorem statusWriteClearsOnOne : Obligations.StatusWriteClearsOnOne := by
  refine fun s v => ⟨_, hostWrite_status v s, ?_, rfl⟩
  rw [← and_not_eq_ite, ← and_not_eq_ite]
  rfl

/-- Settles O37, by what `writeIrqEn` writes. -/
theorem irqEnableWrite : Obligations.IrqEnableWrite :=
  fun s v => ⟨_, hostWrite_irqEn v s, rfl, rfl⟩

/-! ## The engine step (43_control.md R192) -/

/-- The engine's move is not enabled while BUSY = 0. -/
theorem engineMove_of_idle {s : State} (hb : s.busy = false) : engineMove s = .next s := by
  simp only [engineMove, hb, Bool.false_eq_true, if_false]

/-- The engine's move while BUSY = 1 is the command that PEND decodes to. -/
theorem engineMove_of_busy {s : State} {c : Word} {i : Instr} (hb : s.busy = true) (hp : s.pend = some c)
    (hd : decode c = .ok i) (hi : i ≠ .sreset) : engineMove s = runCommand i s := by
  simp only [engineMove, hb, hp, if_true, runPend_eq s hd hi]

theorem runCommand_of_next {i : Instr} {s t : State} (h : exec i s = .next t) : runCommand i s = .next t := by
  simp only [runCommand, h]

theorem runCommand_of_fault {i : Instr} {s : State} {f : Fault} (h : exec i s = .fault f) :
    runCommand i s = .next (markFault f s) := by
  simp only [runCommand, h]

/-- An unmarked state whose mover is the engine makes the engine's move. -/
theorem step_of_engine {s : State} (hf : s.faulted = none) (hm : s.mover = .engine) : step s = engineMove s.popped := by
  rw [step_of_unmarked hf, hm]
  rfl

/-- Settles O39, by the mark and by BUSY. -/
theorem engineStepRunsTheDecodedCommand : Obligations.EngineStepRunsTheDecodedCommand := by
  refine fun s hm => ⟨fun f => step_of_marked, fun hf hb => ?_, fun c i hf hb hp hd hi => ?_⟩
  · rw [step_of_engine hf hm]
    exact engineMove_of_idle hb
  · rw [step_of_engine hf hm, engineMove_of_busy (s := s.popped) hb hp hd hi]
    exact ⟨fun t => runCommand_of_next, fun f => runCommand_of_fault⟩

/-! ## The placed command (43_control.md R190 to R192, R195) -/

/-- The table's number of a word is the word's own. -/
theorem withFetchWord_toNat (s : State) (c : Word) : s.withFetchWord 32 c.toNat = placeCommand c s := by
  rw [State.withFetchWord, tableWord, Nat.mod_eq_of_lt c.isLt, BitVec.ofNat_toNat, BitVec.setWidth_eq]

/-- A placed word of a command other than SRESET is latched, and the engine moves next. -/
theorem placeCommand_of_ne_sreset {i : Instr} (hi : i ≠ .sreset) (s : State) :
    placeCommand (encode i) s =
      { accept (encode i) s with faulted := none, env := { s.env with schedule := .engine :: s.env.schedule } } := by
  cases i with
  | sreset => exact absurd rfl hi
  | _ => rfl

/-- The engine's step on a latched word runs its command on the state as acceptance leaves it, less the fault mark. -/
theorem step_placed {i : Instr} (hi : i ≠ .sreset) (s : State) :
    step (placeCommand (encode i) s) = runCommand i { accept (encode i) s with faulted := none } := by
  rw [placeCommand_of_ne_sreset hi, step_of_engine rfl rfl]
  exact engineMove_of_busy rfl rfl (decode_encode i) hi

/-- The host's write of the SRESET word to the bus address of CMD (20_memory.md R60). -/
theorem hostAccess_sreset (s : State) :
    hostAccess (.write (s.params.base + 0x004) .w4 0x0000000F#32) s = .next (respond .okayWrite (resetBlock s)) :=
  ((apertureOffsets s _ .w4 _).1 0x004 (by decide) rfl).2.trans (hostWrite_sreset s)

/-- The placed SRESET word is the next line of the host, which moves next; the rest of its program is as it was. -/
theorem step_placed_sreset (s : State) : step (placeCommand (encode .sreset) s) =
    .next { resetBlock { s with faulted := none } with env := { s.env with resp := some .okayWrite } } :=
  (step_of_unmarked rfl).trans
    (hostMove_cons (s := (placeCommand (encode .sreset) s).popped) rfl (hostAccess_sreset _))

/-- Settles O41: a latched word runs by the engine's step, SRESET by the host's CMD write. -/
theorem placedCommandRunsNext : Obligations.PlacedCommandRunsNext := by
  refine ⟨?_, fun s => ⟨_, exec_sreset _, ?_⟩⟩
  · rintro s i hi s' rfl
    rw [withFetchWord_toNat, step_placed hi]
    exact ⟨fun t => runCommand_of_next, fun f => runCommand_of_fault⟩
  · rw [withFetchWord_toNat]
    exact step_placed_sreset s

/-! ## What stops the machine, and the end of an accepted command (43_control.md R192, 60_exceptions.md R214,
70_reset_and_hazards.md R253) -/

/-- The engine's move answers a next state when PEND is as the invariant has it: a word that the engine runs while BUSY = 1. -/
theorem engineMove_next {s : State} (h : s.pendOk = true) : ∃ t, engineMove s = .next t := by
  have hmove := engineMove_cases s
  generalize engineMove s = o at hmove ⊢
  cases hmove with
  | stuck hb hstuck =>
    cases hp : s.pend with
    | none => simp [State.pendOk, hp, hb] at h
    | some c =>
      obtain ⟨i, hd, hi⟩ := decode_of_runnableWord (c := c) (by simpa [State.pendOk, hp, hb] using h)
      exact absurd (hstuck c hp i hd) hi
  | _ => exact ⟨_, rfl⟩

/-- The host's move always answers a next state. -/
theorem hostMove_next (s : State) : ∃ t, hostMove s = .next t := by
  rcases hostMove_cases s with ⟨-, e⟩ | ⟨l, rest, u, p, -, -, e⟩ <;> exact ⟨_, e⟩

/-- Settles O45, by the agent that moves: only the engine's move can be refused, and not with such a PEND. -/
theorem onlyTheFaultMarkStops : Obligations.OnlyTheFaultMarkStops := by
  intro s hinv
  obtain ⟨-, -, -, -, -, -, -, hpend, -, -⟩ := hinv
  refine ⟨fun f => step_of_marked, fun hf => ?_⟩
  rw [step_of_unmarked hf]
  cases s.mover with
  | host => exact hostMove_next s.popped
  | engine => exact engineMove_next (s := s.popped) hpend
  | resetSource => exact ⟨_, rfl⟩

/-- After the engine's step no command runs: BUSY = 0, or the fault mark is set. -/
theorem engine_step_ends {s t : State} (h : step s = .next t) (hm : s.mover = .engine) :
    t.busy = false ∨ t.faulted ≠ none := by
  have hmove := engineMove_cases s.popped
  rw [← step_of_engine (step_next h).1 hm, h] at hmove
  cases hmove with
  | idle hidle => exact .inl hidle
  | completion => exact .inl rfl
  | marked => exact .inr (Option.some_ne_none _)

/-- A host access leaves the schedule alone. -/
theorem AccessEnd.schedule_eq {a : Access} {s u : State} (h : AccessEnd a s u) : u.env.schedule = s.env.schedule := by
  cases h with
  | outside => rfl
  | read => rfl
  | write o w v u ha he =>
    cases he with
    | error => rfl
    | refused => rfl
    | done u hu => cases hu <;> rfl

/-- A step takes one turn off the schedule. -/
theorem step_schedule {s t : State} (h : step s = .next t) : t.env.schedule = s.env.schedule.tail := by
  cases (step_next h).2 with
  | host l rest u p hm hp ha => exact ha.schedule_eq
  | _ => rfl

/-- A run begins with a step. -/
theorem run_succ_of_step {s t : State} (h : step s = .next t) (k : Nat) :
    Host.Core.run core (k + 1) s = Host.Core.run core k t := by
  have hcore : core.step s = .next t := h
  simp only [Host.Core.run, hcore]

/-- Settles O53, by induction on the turns that the schedule still holds: a step that does not end the command takes one of
them, and with none left the engine moves. -/
theorem acceptedCommandsEnd : Obligations.AcceptedCommandsEnd := by
  intro s hinv hf hb
  generalize hs : s.env.schedule = turns
  induction turns generalizing s with
  | nil =>
    obtain ⟨t, ht⟩ := (onlyTheFaultMarkStops s hinv).2 hf
    have hm : s.mover = .engine := by simp [State.mover, hs, hb]
    exact ⟨1, t, le_rfl, run_succ_of_step ht 0, engine_step_ends ht hm⟩
  | cons a rest ih =>
    obtain ⟨t, ht⟩ := (onlyTheFaultMarkStops s hinv).2 hf
    by_cases hend : t.busy = false ∨ t.faulted ≠ none
    · exact ⟨1, t, by simp, run_succ_of_step ht 0, hend⟩
    · obtain ⟨hbt, hft⟩ : t.busy = true ∧ t.faulted = none := by simpa using hend
      have hrest : t.env.schedule = rest := by rw [step_schedule ht, hs, List.tail_cons]
      obtain ⟨j, u, hj, hrun, hu⟩ := ih t (everyStepKeepsTheInvariant s t hinv ht) hft hbt hrest
      exact ⟨j + 1, u, Nat.succ_le_succ hj, (run_succ_of_step ht j).trans hrun, hu⟩

end Sys2Proof.Machine

/-! ## The causes of the commands (60_exceptions.md R210) -/

namespace Sys2Proof.Machine

/-- The causes of a verdict on a whole Frame. -/
theorem recvCompletion_frame_cause_mem (len : Nat) (w : Bytes) (n : Nat) (s : State) :
    (recvCompletion (.frame len w n) s).cause ∈ [Cause.corruptShort, .corruptCrc, .none] := by
  simp only [recvCompletion, complete_cause, recvRecord]
  split
  · simp
  · cases (verifyPacket w).ok <;> simp

/-- What RECV ends with, its EOS bit choosing between INCOMPLETE and the two truncations. -/
theorem RecvEnd.cause_mem {eos : Bool} {s t : State} (h : RecvEnd eos s t) :
    t.cause ∈ causesOf (if eos then .recvEos else .recv) := by
  cases h with
  | noPrefix => cases eos <;> simp [causesOf]
  | tooLong => cases eos <;> simp [causesOf]
  | noBody => cases eos <;> simp [causesOf]
  | whole len w =>
    have hverdicts : [Cause.corruptShort, .corruptCrc, .none] ⊆ causesOf (if eos then .recvEos else .recv) := by
      cases eos <;> simp [causesOf]
    exact hverdicts (recvCompletion_frame_cause_mem _ _ _ _)

/-- Settles O19, command by command, by what each can end with. -/
theorem causesAreThoseOfTheTable : Obligations.CausesAreThoseOfTheTable := by
  intro i s t hi h
  cases i with
  | crc =>
    obtain ⟨p, -, rfl⟩ := execCrc_next h
    simp [causesOf]
  | append => rcases execAppend_next h with ⟨-, rfl⟩ | ⟨-, p, -, rfl⟩ <;> simp [causesOf]
  | verify =>
    rcases execVerify_next h with ⟨-, rfl⟩ | ⟨-, w, -, rfl⟩
    · simp [causesOf]
    · cases (verifyPacket w).ok <;> simp [causesOf]
  | fenc => rcases execFenc_next h with ⟨-, rfl⟩ | ⟨-, w, -, rfl⟩ <;> simp [causesOf]
  | recv => exact (recvFrame_next (eos := false) h).cause_mem
  | recvEos => exact (recvFrame_next (eos := true) h).cause_mem
  | send => rcases execSend_next h with ⟨-, rfl⟩ | ⟨-, p, -, rfl⟩ <;> simp [causesOf]
  | sreset => exact absurd rfl hi

end Sys2Proof.Machine

/-! ## The reset source's step (70_reset_and_hazards.md R240 to R242) -/

namespace Sys2Proof.Machine

/-- An unmarked state whose mover is the reset source resets the block, whatever ran. -/
theorem step_of_resetSource {s : State} (hf : s.faulted = none) (hm : s.mover = .resetSource) :
    step s = .next (resetBlock s.popped) := by
  rw [step_of_unmarked hf, hm]
  rfl

/-- With no fault mark to keep, a reset leaves nothing of a state but the parameters and the outside world. -/
theorem resetBlock_of_unmarked {s : State} (hf : s.faulted = none) :
    resetBlock s = { State.reset with params := s.params, env := s.env } := by
  rw [resetBlock, hf]
  rfl

/-- A reset clears both interrupt sources and both enables (10_state.md R50). -/
theorem irq_resetBlock (s : State) : irq (resetBlock s) = false := by
  simp only [irq, resetBlock_done, resetBlock_accerr, Bool.false_and, Bool.or_self]

/-- Settles O42: the step is one reset of the block, and `resetBlock`'s own lemmas give its fields. -/
theorem resetStepLeavesTheResetState : Obligations.ResetStepLeavesTheResetState := by
  intro s hf hm
  exact ⟨resetBlock s.popped, step_of_resetSource hf hm, resetBlock_of_unmarked (s := s.popped) hf,
    statusWord_resetBlock _, irq_resetBlock _, resetBlock_maxPkt _, resetBlock_inLen _, resetBlock_outSeq _,
    resetBlock_crcRes _, resetBlock_crcExp _, resetBlock_frameLen _, resetBlock_consumed _, resetBlock_doneIE _,
    resetBlock_accerrIE _, resetBlock_pend _, fun _ => rfl⟩

end Sys2Proof.Machine
